-- ==== Sys2Proof/Word.lean ====
section
/-! DEFINITION. The plain values of the frame engine: a byte (R10), a text (R11), an opaque name (R58), and the
fixed-length byte groups that the spec's fields and its integer codec take (R45, R46, R62). -/

namespace Sys2Proof

/-- A byte, an unsigned integer 0 to 255; bit 7 is its most significant bit (00_scope.md R10). -/
abbrev Byte := BitVec 8

/-- A text string, a sequence of ASCII characters (00_scope.md R11). -/
abbrev Text := List Char

/-- An opaque name: a completion token, an error value of the byte source or sink, a sink's result value. The engine
passes it on and never looks inside (30_encoding.md R58, 43_commands.md R100). -/
abbrev OpaqueName := Text

/-- Two bytes in wire order (30_encoding.md R46, the ELEC2 identifier). -/
structure Bytes2 where
  b0 : Byte
  b1 : Byte
deriving DecidableEq, Repr, Inhabited

/-- Three bytes in wire order (30_encoding.md R45, R47; 43_commands.md R90). -/
structure Bytes3 where
  b0 : Byte
  b1 : Byte
  b2 : Byte
deriving DecidableEq, Repr, Inhabited

/-- Exactly four bytes, the operand of `decode_uint32`; no other length can be given (40_integer_codec.md R62). -/
structure Bytes4 where
  b0 : Byte
  b1 : Byte
  b2 : Byte
  b3 : Byte
deriving DecidableEq, Repr, Inhabited

/-- Exactly six bytes, the operand of `decode_uint48`; no other length can be given (40_integer_codec.md R62). -/
structure Bytes6 where
  b0 : Byte
  b1 : Byte
  b2 : Byte
  b3 : Byte
  b4 : Byte
  b5 : Byte
deriving DecidableEq, Repr, Inhabited

/-- The bytes of a two-byte group, lowest offset first. -/
def Bytes2.toList (b : Bytes2) : List Byte := [b.b0, b.b1]

/-- The bytes of a three-byte group, lowest offset first. -/
def Bytes3.toList (b : Bytes3) : List Byte := [b.b0, b.b1, b.b2]

/-- The bytes of a four-byte group, lowest offset first. -/
def Bytes4.toList (b : Bytes4) : List Byte := [b.b0, b.b1, b.b2, b.b3]

/-- The bytes of a six-byte group, lowest offset first. -/
def Bytes6.toList (b : Bytes6) : List Byte := [b.b0, b.b1, b.b2, b.b3, b.b4, b.b5]

end Sys2Proof
end

