-- ==== Sys2Proof/Syntax.lean ====
section
/-! DEFINITION. The operations of the frame engine, one constructor of `Instr` for each row of spec/opcode_table.json
(30_encoding.md R57), with the payload shapes of the five packet formats (R43 to R47), the outcome of selecting a
decoder (R73), and the parts of one line of the trace notation (R58). -/

namespace Sys2Proof

/-- A STATUS payload: the fields of R43 in payload order, then the bytes after the last listed field (R53). -/
structure StatusPayload where
  subtype : Byte
  seq : Byte
  cmnd : Byte
  rxtype : Byte
  fw : Byte
  trailing : List Byte
deriving DecidableEq, Repr, Inhabited

/-- A RESPONSE payload: the fields of R44 in payload order, then the bytes after the last listed field. -/
structure ResponsePayload where
  subtype : Byte
  seq : Byte
  msg : Byte
  trailing : List Byte
deriving DecidableEq, Repr, Inhabited

/-- A LIGHTING5 payload: the fields of R45 in payload order, then the bytes after the last listed field. -/
structure Lighting5Payload where
  subtype : Byte
  seq : Byte
  id : Bytes3
  unit : Byte
  cmd : Byte
  trailing : List Byte
deriving DecidableEq, Repr, Inhabited

/-- A SECURITY1 payload: the fields of R47 in payload order, then the bytes after the last listed field. -/
structure Security1Payload where
  subtype : Byte
  seq : Byte
  id : Bytes3
  status : Byte
  battery : Byte
  trailing : List Byte
deriving DecidableEq, Repr, Inhabited

/-- An ELEC2 payload: the fields of R46 in payload order, then the bytes after the last listed field. -/
structure Elec2Payload where
  subtype : Byte
  seq : Byte
  id : Bytes2
  count : Byte
  instant : Bytes4
  total : Bytes6
  trailing : List Byte
deriving DecidableEq, Repr, Inhabited

/-- The operations of 30_encoding.md R57. An input operation is one input event and one step; the sub-operations and
functions run inside a step, and each has a constructor so that it can be run, and spoken of, on its own. -/
inductive Instr
  /-- `RST`, the reset input (R127). -/
  | rst
  /-- `OPEN`, the transport reports the link usable (R114). -/
  | openLink
  /-- `RXB b`, one byte from the byte source (R66). -/
  | rxb (b : Byte)
  /-- `RXC c`, one chunk from the byte source (R67). -/
  | rxc (c : List Byte)
  /-- `RXERR e`, the byte source reports a stream error (R115). -/
  | rxerr (e : OpaqueName)
  /-- `RXEND`, the byte source reports end of stream (R116). -/
  | rxend
  /-- `DISPATCH f`, select a decoder for one complete frame (R73). -/
  | dispatch (f : List Byte)
  /-- `DEC.STATUS p` (R77). -/
  | decStatus (p : StatusPayload)
  /-- `DEC.RESPONSE p` (R78). -/
  | decResponse (p : ResponsePayload)
  /-- `DEC.LIGHTING5 p` (R79). -/
  | decLighting5 (p : Lighting5Payload)
  /-- `DEC.SECURITY1 p` (R82). -/
  | decSecurity1 (p : Security1Payload)
  /-- `DEC.ELEC2 p` (R80). -/
  | decElec2 (p : Elec2Payload)
  /-- `UNHANDLED t`, an unknown tag, or no tag at all (R74, R75). -/
  | unhandled (t : Option Byte)
  /-- `CMD.RESET h` (R92). -/
  | cmdReset (h : OpaqueName)
  /-- `CMD.STATUS h` (R93). -/
  | cmdStatus (h : OpaqueName)
  /-- `CMD.TAMPER h` (R94). -/
  | cmdTamper (h : OpaqueName)
  /-- `CMD.LON id unit h` (R95). -/
  | cmdLon (id : Text) (unit : Byte) (h : OpaqueName)
  /-- `CMD.LOFF id unit h` (R96). -/
  | cmdLoff (id : Text) (unit : Byte) (h : OpaqueName)
  /-- `TXDONE h err res`, the byte sink reports a write settled; `err` is absent on success (R100). -/
  | txdone (h : OpaqueName) (err : Option OpaqueName) (res : OpaqueName)
  /-- `ALLOC`, the sequence allocator (R88). -/
  | alloc
  /-- `PARSEID t` (R90). -/
  | parseId (t : Text)
  /-- `decode_uint32 b` (R60). -/
  | decodeUint32 (b : Bytes4)
  /-- `decode_uint48 b` (R61, R63). -/
  | decodeUint48 (b : Bytes6)
  /-- `to_hex b pre` (R104). -/
  | toHex (bytes : List Byte) (pre : Option Text)
  /-- `id_string b` (R106). -/
  | idString (bytes : List Byte)
deriving DecidableEq, Repr

/-- The mnemonics of R57, without operands: a line of the trace notation begins with one of them. -/
inductive Op
  | rst
  | openLink
  | rxb
  | rxc
  | rxerr
  | rxend
  | dispatch
  | decStatus
  | decResponse
  | decLighting5
  | decSecurity1
  | decElec2
  | unhandled
  | cmdReset
  | cmdStatus
  | cmdTamper
  | cmdLon
  | cmdLoff
  | txdone
  | alloc
  | parseId
  | decodeUint32
  | decodeUint48
  | toHex
  | idString
deriving DecidableEq, Repr

/-- The mnemonic an operation stands under. -/
def Instr.op : Instr → Op
  | .rst => .rst
  | .openLink => .openLink
  | .rxb _ => .rxb
  | .rxc _ => .rxc
  | .rxerr _ => .rxerr
  | .rxend => .rxend
  | .dispatch _ => .dispatch
  | .decStatus _ => .decStatus
  | .decResponse _ => .decResponse
  | .decLighting5 _ => .decLighting5
  | .decSecurity1 _ => .decSecurity1
  | .decElec2 _ => .decElec2
  | .unhandled _ => .unhandled
  | .cmdReset _ => .cmdReset
  | .cmdStatus _ => .cmdStatus
  | .cmdTamper _ => .cmdTamper
  | .cmdLon _ _ _ => .cmdLon
  | .cmdLoff _ _ _ => .cmdLoff
  | .txdone _ _ _ => .txdone
  | .alloc => .alloc
  | .parseId _ => .parseId
  | .decodeUint32 _ => .decodeUint32
  | .decodeUint48 _ => .decodeUint48
  | .toHex _ _ => .toHex
  | .idString _ => .idString

/-- The input operations of R57, which the environment may deliver (60_exceptions.md R112); the others are
sub-operations and functions. -/
def Instr.isInput : Instr → Bool
  | .rst => true
  | .openLink => true
  | .rxb _ => true
  | .rxc _ => true
  | .rxerr _ => true
  | .rxend => true
  | .dispatch _ => false
  | .decStatus _ => false
  | .decResponse _ => false
  | .decLighting5 _ => false
  | .decSecurity1 _ => false
  | .decElec2 _ => false
  | .unhandled _ => false
  | .cmdReset _ => true
  | .cmdStatus _ => true
  | .cmdTamper _ => true
  | .cmdLon _ _ _ => true
  | .cmdLoff _ _ _ => true
  | .txdone _ _ _ => true
  | .alloc => false
  | .parseId _ => false
  | .decodeUint32 _ => false
  | .decodeUint48 _ => false
  | .toHex _ _ => false
  | .idString _ => false

/-- What a frame selects: one of the five decoders with its payload, the default arm with the tag (`none` for a frame
of one byte), or a known tag whose payload is too short, with the tag, the payload's length and the length its format
needs (42_dispatch_decoders.md R73 to R76). -/
inductive FrameSel
  | status (p : StatusPayload)
  | response (p : ResponsePayload)
  | lighting5 (p : Lighting5Payload)
  | security1 (p : Security1Payload)
  | elec2 (p : Elec2Payload)
  | unhandled (t : Option Byte)
  | short (t : Byte) (got need : Nat)
deriving DecidableEq, Repr

/-- One line of the trace notation of R58, cut up: the words before a text in double quotes, that text if there is one,
and the words after it. -/
structure Line where
  pre : List Text
  quoted : Option Text
  post : List Text
deriving DecidableEq, Repr, Inhabited

/-- Why a line is no operation: its first word is no mnemonic of R57; its operands are not of the mnemonic's shape; or
an operand lies outside what the operation can be given (`Instr.WellFormed`). -/
inductive DecodeError
  | unknownMnemonic
  | badOperands
  | illFormed
deriving DecidableEq, Repr

end Sys2Proof
end

