-- ==== Sys2Proof/WellFormed.lean ====
section
/-! DEFINITION. The operands the rules give an operation, and which operations the trace notation of R58 can write. Only
the line decoder refuses others: a step runs every operation (60_exceptions.md R126). -/

namespace Sys2Proof

/-- The five tags that select a decoder, `CFG.TAGS` (00_scope.md R8, 30_encoding.md R52). -/
def isKnownTag (t : Byte) : Bool :=
  t == 0x01 || t == 0x02 || t == 0x14 || t == 0x20 || t == 0x5A

/-- A complete frame of R41: its length byte counts the bytes that follow it. -/
def frameOk : List Byte → Bool
  | [] => false
  | l :: rest => rest.length == l.toNat

/-- An ASCII text (00_scope.md R11). -/
def asciiOk (t : Text) : Bool := t.all fun c => c.toNat < 128

/-- A name the notation of R58 can write as one word: some visible ASCII characters, no space, no double quote, and
not the single `-` that stands for an absent error value. -/
def nameOk (n : OpaqueName) : Bool :=
  !n.isEmpty && n != ['-'] && n.all fun c => 32 < c.toNat && c.toNat < 127 && c != '"'

/-- What the rules say of an operation's operands (assumption 12). A decoder's payload fits in a frame, whose `L` is at
most 255, so it has at most 254 bytes (R41, R42); `UNHANDLED` takes the tags that select no decoder (R74) or none (R75);
a frame is complete (R73); a text is ASCII (R11); an identifier has 2 or 3 bytes (R106). -/
def Instr.operandsOk : Instr → Bool
  | .rst => true
  | .openLink => true
  | .rxb _ => true
  | .rxc _ => true
  | .rxerr _ => true
  | .rxend => true
  | .dispatch f => frameOk f
  | .decStatus p => 5 + p.trailing.length ≤ 254
  | .decResponse p => 3 + p.trailing.length ≤ 254
  | .decLighting5 p => 7 + p.trailing.length ≤ 254
  | .decSecurity1 p => 7 + p.trailing.length ≤ 254
  | .decElec2 p => 15 + p.trailing.length ≤ 254
  | .unhandled none => true
  | .unhandled (some t) => !isKnownTag t
  | .cmdReset _ => true
  | .cmdStatus _ => true
  | .cmdTamper _ => true
  | .cmdLon id _ _ => asciiOk id
  | .cmdLoff id _ _ => asciiOk id
  | .txdone _ _ _ => true
  | .alloc => true
  | .parseId t => asciiOk t
  | .decodeUint32 _ => true
  | .decodeUint48 _ => true
  | .toHex _ none => true
  | .toHex _ (some pre) => asciiOk pre
  | .idString bytes => bytes.length == 2 || bytes.length == 3

/-- The opaque names an operation carries (R58, R100). -/
def Instr.names : Instr → List OpaqueName
  | .rst => []
  | .openLink => []
  | .rxb _ => []
  | .rxc _ => []
  | .rxerr e => [e]
  | .rxend => []
  | .dispatch _ => []
  | .decStatus _ => []
  | .decResponse _ => []
  | .decLighting5 _ => []
  | .decSecurity1 _ => []
  | .decElec2 _ => []
  | .unhandled _ => []
  | .cmdReset h => [h]
  | .cmdStatus h => [h]
  | .cmdTamper h => [h]
  | .cmdLon _ _ h => [h]
  | .cmdLoff _ _ h => [h]
  | .txdone h err res => h :: err.toList ++ [res]
  | .alloc => []
  | .parseId _ => []
  | .decodeUint32 _ => []
  | .decodeUint48 _ => []
  | .toHex _ _ => []
  | .idString _ => []

/-- The operations a trace line can carry: operands of the operation's rule, and names the notation can write
(assumption 7). `exec` and `step` ask for neither. -/
def Instr.WellFormed (i : Instr) : Bool := i.operandsOk && i.names.all nameOk

end Sys2Proof
end

