-- ==== Sys2Proof/Decode.lean ====
section
/-! DEFINITION. The two encodings the spec gives, each with its decoder and its encoder. (1) FRAMES: the frame of R41
and the five packet formats of R43 to R47, where the tag at frame offset 1 selects the decoder (R52, R73).
(2) TRACE LINES: the notation of R58, in which the operations of R57, which have no numeric code, are named. Both
decoders are total and refuse by name. -/

namespace Sys2Proof

/-! ## Frames -/

/-- The payload length the format of a tag needs (R43 to R47); 0 for a tag that selects no decoder. -/
def needOf (t : Byte) : Nat :=
  if t = 0x01 then 5 else if t = 0x02 then 3 else if t = 0x14 then 7 else if t = 0x20 then 7
  else if t = 0x5A then 15 else 0

/-- The fields of a STATUS payload at the offsets of R43; `none` when it is shorter than 5 bytes. -/
def parseStatus : List Byte → Option StatusPayload
  | subtype :: seq :: cmnd :: rxtype :: fw :: trailing => some ⟨subtype, seq, cmnd, rxtype, fw, trailing⟩
  | _ => none

/-- The fields of a RESPONSE payload at the offsets of R44; `none` when it is shorter than 3 bytes. -/
def parseResponse : List Byte → Option ResponsePayload
  | subtype :: seq :: msg :: trailing => some ⟨subtype, seq, msg, trailing⟩
  | _ => none

/-- The fields of a LIGHTING5 payload at the offsets of R45; `none` when it is shorter than 7 bytes. -/
def parseLighting5 : List Byte → Option Lighting5Payload
  | subtype :: seq :: i0 :: i1 :: i2 :: unit :: cmd :: trailing => some ⟨subtype, seq, ⟨i0, i1, i2⟩, unit, cmd, trailing⟩
  | _ => none

/-- The fields of a SECURITY1 payload at the offsets of R47; `none` when it is shorter than 7 bytes. -/
def parseSecurity1 : List Byte → Option Security1Payload
  | subtype :: seq :: i0 :: i1 :: i2 :: status :: battery :: trailing =>
    some ⟨subtype, seq, ⟨i0, i1, i2⟩, status, battery, trailing⟩
  | _ => none

/-- The fields of an ELEC2 payload at the offsets of R46; `none` when it is shorter than 15 bytes. -/
def parseElec2 : List Byte → Option Elec2Payload
  | subtype :: seq :: i0 :: i1 :: count :: n0 :: n1 :: n2 :: n3 :: t0 :: t1 :: t2 :: t3 :: t4 :: t5 :: trailing =>
    some ⟨subtype, seq, ⟨i0, i1⟩, count, ⟨n0, n1, n2, n3⟩, ⟨t0, t1, t2, t3, t4, t5⟩, trailing⟩
  | _ => none

/-- What a payload under a known tag selects: the decoder with the parsed payload, or the short case of R76. -/
def selectOr {α : Type} (tag : Byte) (p : List Byte) (mk : α → FrameSel) : Option α → FrameSel
  | some q => mk q
  | none => .short tag p.length (needOf tag)

/-- The case split of `DISPATCH` (R73): a frame of fewer than two bytes has no tag (R75); the tag selects one of the
five formats; any other tag takes the default arm (R74). The length byte is not used. -/
def selectFrame : List Byte → FrameSel
  | _ :: tag :: p =>
    if tag = 0x01 then selectOr tag p .status (parseStatus p)
    else if tag = 0x02 then selectOr tag p .response (parseResponse p)
    else if tag = 0x14 then selectOr tag p .lighting5 (parseLighting5 p)
    else if tag = 0x20 then selectOr tag p .security1 (parseSecurity1 p)
    else if tag = 0x5A then selectOr tag p .elec2 (parseElec2 p)
    else .unhandled (some tag)
  | _ => .unhandled none

/-- The sub-operation a frame's bytes stand for; `none` for bytes that are no frame (R41) and for a frame whose payload
is too short for its tag (R76), which runs no decoder. -/
def decodeFrame (f : List Byte) : Option Instr :=
  if frameOk f then
    match selectFrame f with
    | .status p => some (.decStatus p)
    | .response p => some (.decResponse p)
    | .lighting5 p => some (.decLighting5 p)
    | .security1 p => some (.decSecurity1 p)
    | .elec2 p => some (.decElec2 p)
    | .unhandled t => some (.unhandled t)
    | .short _ _ _ => none
  else none

/-- The payload bytes of each format, in the order of R43 to R47. -/
def StatusPayload.toBytes (p : StatusPayload) : List Byte :=
  [p.subtype, p.seq, p.cmnd, p.rxtype, p.fw] ++ p.trailing

/-- See `StatusPayload.toBytes`; R44. -/
def ResponsePayload.toBytes (p : ResponsePayload) : List Byte :=
  [p.subtype, p.seq, p.msg] ++ p.trailing

/-- See `StatusPayload.toBytes`; R45. -/
def Lighting5Payload.toBytes (p : Lighting5Payload) : List Byte :=
  [p.subtype, p.seq] ++ p.id.toList ++ [p.unit, p.cmd] ++ p.trailing

/-- See `StatusPayload.toBytes`; R47. -/
def Security1Payload.toBytes (p : Security1Payload) : List Byte :=
  [p.subtype, p.seq] ++ p.id.toList ++ [p.status, p.battery] ++ p.trailing

/-- See `StatusPayload.toBytes`; R46. -/
def Elec2Payload.toBytes (p : Elec2Payload) : List Byte :=
  [p.subtype, p.seq] ++ p.id.toList ++ [p.count] ++ p.instant.toList ++ p.total.toList ++ p.trailing

/-- A frame with this tag and payload: its length byte counts the bytes that follow it (R41). -/
def frameOf (tag : Byte) (p : List Byte) : List Byte :=
  BitVec.ofNat 8 (p.length + 1) :: tag :: p

/-- The frame whose sub-operation this is; `none` for the operations that are no frame's. -/
def encodeFrame : Instr → Option (List Byte)
  | .decStatus p => some (frameOf 0x01 p.toBytes)
  | .decResponse p => some (frameOf 0x02 p.toBytes)
  | .decLighting5 p => some (frameOf 0x14 p.toBytes)
  | .decSecurity1 p => some (frameOf 0x20 p.toBytes)
  | .decElec2 p => some (frameOf 0x5A p.toBytes)
  | .unhandled (some t) => some (frameOf t [])
  | .unhandled none => some [0x00]
  | _ => none

/-! ## Hexadecimal digits and bytes -/

/-- `digit(n)` of R105: `"0"` to `"9"`, then `"A"` to `"F"`. -/
def hexDigit (n : Nat) : Char :=
  if n < 10 then Char.ofNat (48 + n) else Char.ofNat (55 + n)

/-- `hex2(v)` of R105: a byte as two upper-case hex digits, bits 7:4 first. -/
def hex2 (v : Byte) : Text := [hexDigit (v.toNat / 16), hexDigit (v.toNat % 16)]

/-- `hexval(ch)` of R90: the value of a hex digit of either case. -/
def hexVal (c : Char) : Option Nat :=
  let n := c.toNat
  if 48 ≤ n ∧ n ≤ 57 then some (n - 48)
  else if 65 ≤ n ∧ n ≤ 70 then some (n - 55)
  else if 97 ≤ n ∧ n ≤ 102 then some (n - 87)
  else none

/-- A pair of hex digits as a byte, the first digit the high nibble (R59, R90). -/
def hexPair (hi lo : Char) : Option Byte :=
  match hexVal hi, hexVal lo with
  | some h, some l => some (BitVec.ofNat 8 (h * 16 + l))
  | _, _ => none

/-! ## Trace lines: cutting a line up (R58) -/

/-- Put a finished word, if it is one, before the words that follow it. -/
def flushWord : Text × List Text → List Text
  | ([], ws) => ws
  | (w, ws) => w :: ws

/-- The word a text begins with and the words after it. -/
def splitWords : Text → Text × List Text
  | [] => ([], [])
  | c :: cs => if c = ' ' then ([], flushWord (splitWords cs)) else (c :: (splitWords cs).1, (splitWords cs).2)

/-- The words of a text, which spaces separate. -/
def words (t : Text) : List Text := flushWord (splitWords t)

/-- Words with one space between each two. -/
def unwords : List Text → Text
  | [] => []
  | [w] => w
  | w :: ws => w ++ ' ' :: unwords ws

/-- What stands before the first double quote, and what stands after it. -/
def cutQuote : Text → Option (Text × Text)
  | [] => none
  | c :: cs =>
    if c = '"' then some ([], cs)
    else match cutQuote cs with
      | some (a, b) => some (c :: a, b)
      | none => none

/-- What stands before the last double quote, and what stands after it. -/
def cutLastQuote (t : Text) : Option (Text × Text) :=
  match cutQuote t.reverse with
  | some (b, a) => some (a.reverse, b.reverse)
  | none => none

/-- A line cut up: the text between its first and its last double quote is the quoted one; `none` when there is a
single double quote. -/
def scanLine (t : Text) : Option Line :=
  match cutQuote t with
  | none => some ⟨words t, none, []⟩
  | some (a, r) =>
    match cutLastQuote r with
    | none => none
    | some (q, b) => some ⟨words a, some q, words b⟩

/-- The characters of a line. -/
def renderLine (l : Line) : Text :=
  match l.quoted with
  | none => unwords l.pre
  | some q => unwords l.pre ++ ' ' :: '"' :: q ++ '"' :: (match l.post with | [] => [] | ws => ' ' :: unwords ws)

/-! ## Trace lines: operands (R58) -/

/-- "Bytes are written `0x..`" (R58). -/
def byteOfWord : Text → Option Byte
  | ['0', 'x', hi, lo] => hexPair hi lo
  | _ => none

/-- A byte as `0x` and two upper-case digits. -/
def wordOfByte (b : Byte) : Text := '0' :: 'x' :: hex2 b

/-- A sequence of bytes, one word each. -/
def bytesOfWords : List Text → Option (List Byte)
  | [] => some []
  | w :: ws =>
    match byteOfWord w, bytesOfWords ws with
    | some b, some bs => some (b :: bs)
    | _, _ => none

/-- The value of a text of decimal digits, `acc` standing before them. -/
def decimalFrom (acc : Nat) : Text → Option Nat
  | [] => some acc
  | c :: cs => if 48 ≤ c.toNat ∧ c.toNat ≤ 57 then decimalFrom (acc * 10 + (c.toNat - 48)) cs else none

/-- "A unit code is a decimal or `0x` byte" (R58). -/
def unitOfWord (w : Text) : Option Byte :=
  match byteOfWord w with
  | some b => some b
  | none =>
    match w with
    | [] => none
    | _ =>
      match decimalFrom 0 w with
      | some n => if n < 256 then some (BitVec.ofNat 8 n) else none
      | none => none

/-- A tag, or the word `none` for the frame that has none (R75). -/
def tagOfWord (w : Text) : Option (Option Byte) :=
  if w = "none".toList then some none else (byteOfWord w).map some

/-- The word for a tag or its absence. -/
def wordOfTag : Option Byte → Text
  | none => "none".toList
  | some t => wordOfByte t

/-- An error value of `TXDONE`, or `-` for its absence (95_test_vectors.md V97, P2). -/
def errOfWord (w : Text) : Option OpaqueName := if w = ['-'] then none else some w

/-- The word for an error value or its absence. -/
def wordOfErr : Option OpaqueName → Text
  | none => ['-']
  | some e => e

/-- A four-byte operand. -/
def bytes4Of : List Byte → Option Bytes4
  | [b0, b1, b2, b3] => some ⟨b0, b1, b2, b3⟩
  | _ => none

/-- A six-byte operand. -/
def bytes6Of : List Byte → Option Bytes6
  | [b0, b1, b2, b3, b4, b5] => some ⟨b0, b1, b2, b3, b4, b5⟩
  | _ => none

/-! ## Trace lines: mnemonics (R57) -/

/-- The mnemonics of R57, letter for letter. -/
def Op.name : Op → Text
  | .rst => "RST".toList
  | .openLink => "OPEN".toList
  | .rxb => "RXB".toList
  | .rxc => "RXC".toList
  | .rxerr => "RXERR".toList
  | .rxend => "RXEND".toList
  | .dispatch => "DISPATCH".toList
  | .decStatus => "DEC.STATUS".toList
  | .decResponse => "DEC.RESPONSE".toList
  | .decLighting5 => "DEC.LIGHTING5".toList
  | .decSecurity1 => "DEC.SECURITY1".toList
  | .decElec2 => "DEC.ELEC2".toList
  | .unhandled => "UNHANDLED".toList
  | .cmdReset => "CMD.RESET".toList
  | .cmdStatus => "CMD.STATUS".toList
  | .cmdTamper => "CMD.TAMPER".toList
  | .cmdLon => "CMD.LON".toList
  | .cmdLoff => "CMD.LOFF".toList
  | .txdone => "TXDONE".toList
  | .alloc => "ALLOC".toList
  | .parseId => "PARSEID".toList
  | .decodeUint32 => "decode_uint32".toList
  | .decodeUint48 => "decode_uint48".toList
  | .toHex => "to_hex".toList
  | .idString => "id_string".toList

/-- Every mnemonic, in the table's order. -/
def Op.all : List Op :=
  [.rst, .openLink, .rxb, .rxc, .rxerr, .rxend, .dispatch, .decStatus, .decResponse, .decLighting5, .decSecurity1,
   .decElec2, .unhandled, .cmdReset, .cmdStatus, .cmdTamper, .cmdLon, .cmdLoff, .txdone, .alloc, .parseId,
   .decodeUint32, .decodeUint48, .toHex, .idString]

/-- The mnemonic a word is. -/
def Op.ofName (w : Text) : Option Op := Op.all.find? fun o => o.name == w

/-! ## Trace lines: operations -/

/-- The operation a mnemonic and its operands name, each operand written as R58 writes it. -/
def operandsOf (o : Op) (ws : List Text) (q : Option Text) (post : List Text) : Option Instr :=
  match o with
  | .rst => match ws, q, post with | [], none, [] => some .rst | _, _, _ => none
  | .openLink => match ws, q, post with | [], none, [] => some .openLink | _, _, _ => none
  | .rxb => match ws, q, post with | [w], none, [] => (byteOfWord w).map .rxb | _, _, _ => none
  | .rxc => match q, post with | none, [] => (bytesOfWords ws).map .rxc | _, _ => none
  | .rxerr => match ws, q, post with | [e], none, [] => some (.rxerr e) | _, _, _ => none
  | .rxend => match ws, q, post with | [], none, [] => some .rxend | _, _, _ => none
  | .dispatch => match q, post with | none, [] => (bytesOfWords ws).map .dispatch | _, _ => none
  | .decStatus => match q, post with | none, [] => ((bytesOfWords ws).bind parseStatus).map .decStatus | _, _ => none
  | .decResponse =>
    match q, post with | none, [] => ((bytesOfWords ws).bind parseResponse).map .decResponse | _, _ => none
  | .decLighting5 =>
    match q, post with | none, [] => ((bytesOfWords ws).bind parseLighting5).map .decLighting5 | _, _ => none
  | .decSecurity1 =>
    match q, post with | none, [] => ((bytesOfWords ws).bind parseSecurity1).map .decSecurity1 | _, _ => none
  | .decElec2 => match q, post with | none, [] => ((bytesOfWords ws).bind parseElec2).map .decElec2 | _, _ => none
  | .unhandled => match ws, q, post with | [w], none, [] => (tagOfWord w).map .unhandled | _, _, _ => none
  | .cmdReset => match ws, q, post with | [h], none, [] => some (.cmdReset h) | _, _, _ => none
  | .cmdStatus => match ws, q, post with | [h], none, [] => some (.cmdStatus h) | _, _, _ => none
  | .cmdTamper => match ws, q, post with | [h], none, [] => some (.cmdTamper h) | _, _, _ => none
  | .cmdLon =>
    match ws, q, post with | [], some id, [u, h] => (unitOfWord u).map fun v => .cmdLon id v h | _, _, _ => none
  | .cmdLoff =>
    match ws, q, post with | [], some id, [u, h] => (unitOfWord u).map fun v => .cmdLoff id v h | _, _, _ => none
  | .txdone =>
    match ws, q, post with | [h, err, res], none, [] => some (.txdone h (errOfWord err) res) | _, _, _ => none
  | .alloc => match ws, q, post with | [], none, [] => some .alloc | _, _, _ => none
  | .parseId => match ws, q, post with | [], some t, [] => some (.parseId t) | _, _, _ => none
  | .decodeUint32 =>
    match q, post with | none, [] => ((bytesOfWords ws).bind bytes4Of).map .decodeUint32 | _, _ => none
  | .decodeUint48 =>
    match q, post with | none, [] => ((bytesOfWords ws).bind bytes6Of).map .decodeUint48 | _, _ => none
  | .toHex => match post with | [] => (bytesOfWords ws).map fun bs => .toHex bs q | _ => none
  | .idString => match q, post with | none, [] => (bytesOfWords ws).map .idString | _, _ => none

/-- The operation of a line, or why it is none. -/
def decode (t : Text) : Except DecodeError Instr :=
  match scanLine t with
  | none => .error .badOperands
  | some l =>
    match l.pre with
    | [] => .error .unknownMnemonic
    | m :: ws =>
      match Op.ofName m with
      | none => .error .unknownMnemonic
      | some o =>
        match operandsOf o ws l.quoted l.post with
        | none => .error .badOperands
        | some i => if i.WellFormed then .ok i else .error .illFormed

/-- The words of an operation's operands before a quoted text. -/
def operandWords : Instr → List Text
  | .rst => []
  | .openLink => []
  | .rxb b => [wordOfByte b]
  | .rxc c => c.map wordOfByte
  | .rxerr e => [e]
  | .rxend => []
  | .dispatch f => f.map wordOfByte
  | .decStatus p => p.toBytes.map wordOfByte
  | .decResponse p => p.toBytes.map wordOfByte
  | .decLighting5 p => p.toBytes.map wordOfByte
  | .decSecurity1 p => p.toBytes.map wordOfByte
  | .decElec2 p => p.toBytes.map wordOfByte
  | .unhandled t => [wordOfTag t]
  | .cmdReset h => [h]
  | .cmdStatus h => [h]
  | .cmdTamper h => [h]
  | .cmdLon _ _ _ => []
  | .cmdLoff _ _ _ => []
  | .txdone h err res => [h, wordOfErr err, res]
  | .alloc => []
  | .parseId _ => []
  | .decodeUint32 b => b.toList.map wordOfByte
  | .decodeUint48 b => b.toList.map wordOfByte
  | .toHex bytes _ => bytes.map wordOfByte
  | .idString bytes => bytes.map wordOfByte

/-- The text an operation has in double quotes: a device identifier, or the prefix of `to_hex`. -/
def quotedOperand : Instr → Option Text
  | .cmdLon id _ _ => some id
  | .cmdLoff id _ _ => some id
  | .parseId t => some t
  | .toHex _ pre => pre
  | _ => none

/-- The words of an operation's operands after a quoted text. -/
def wordsAfterQuote : Instr → List Text
  | .cmdLon _ unit h => [wordOfByte unit, h]
  | .cmdLoff _ unit h => [wordOfByte unit, h]
  | _ => []

/-- The line of an operation, cut up. -/
def lineOf (i : Instr) : Line := ⟨i.op.name :: operandWords i, quotedOperand i, wordsAfterQuote i⟩

/-- The line of an operation, in the notation of R58. -/
def encode (i : Instr) : Text := renderLine (lineOf i)

/-! ## The words of spec/opcode_table.json -/

/-- The first `n` bytes of a number, the least significant first: the table's bit numbering, word by word. -/
def tableBytes : Nat → Nat → List Byte
  | 0, _ => []
  | n + 1, w => BitVec.ofNat 8 w :: tableBytes n (w / 256)

/-- The frame a table word stands for. The table gives a decoder's row the 8 bits of frame byte 1, the tag ("match and
mask apply to frame byte 1"): the frame is that tag with as many zero payload bytes as its format needs. A longer word
is the frame from byte 0 on. No bits, no frame. -/
def tableFrame (nbits w : Nat) : Option (List Byte) :=
  let v := w % 2 ^ nbits
  if nbits = 0 then none
  else if nbits ≤ 8 then
    let tag : Byte := BitVec.ofNat 8 v
    some (frameOf tag (List.replicate (needOf tag) 0))
  else
    match tableBytes 256 v with
    | [] => none
    | l :: rest => some (l :: rest.take l.toNat)

/-- The operation the frame decoder reads from a table word. -/
def decodeTableWord (nbits w : Nat) : Option Instr := (tableFrame nbits w).bind decodeFrame

end Sys2Proof
end

