-- ==== Sys2Proof/Config.lean ====
section
/-! DEFINITION. The configuration record `CFG` (00_scope.md R8): what an instantiation of the engine fixes and no
operation writes. The OPEN fields of R8 are free: the two `opaque` constants below have no body, so nothing can be
proved of their values. The constants of `CFG` that the source fixes stand where they are used: `CFG.SEQ_MAX` is
`Machine.seqMax` (Machine/Ops.lean), `CFG.CAL` is in `Machine.scaleCenti` (Machine/Codec.lean), `CFG.TAGS` is
`isKnownTag` (WellFormed.lean). -/

namespace Sys2Proof

/-- The descriptions of a RESPONSE message code (42_dispatch_decoders.md R86). -/
inductive AckDesc
  | transmitOK
  | transmitDelayed
  | nakFrequencyLock
  | nakAddressNotAllowed
deriving DecidableEq, Repr, Inhabited

/-- The descriptions of a LIGHTING5 subtype (42_dispatch_decoders.md R86). -/
inductive L5Subtype
  | lightwaveRFSiemens
  | emw100GAOEverflourish
deriving DecidableEq, Repr, Inhabited

/-- The descriptions of a LIGHTING5 command byte (42_dispatch_decoders.md R86). -/
inductive OnOff
  | off
  | on
deriving DecidableEq, Repr, Inhabited

/-- The descriptions of a SECURITY1 subtype (42_dispatch_decoders.md R86). -/
inductive Sec1Subtype
  | doorWindowSensor
  | motionSensor
  | remote
deriving DecidableEq, Repr, Inhabited

/-- The five command kinds. They have no numeric codes (30_encoding.md R56, R57; 43_commands.md R87). -/
inductive CmdKind
  | reset
  | getStatus
  | resetTamper
  | lightOn
  | lightOff
deriving DecidableEq, Repr, Inhabited

/-- The kinds whose commands carry an identifier, a unit code and a flag (30_encoding.md R56). -/
def CmdKind.isLight : CmdKind → Bool
  | .reset => false
  | .getStatus => false
  | .resetTamper => false
  | .lightOn => true
  | .lightOff => true

/-- A command template: the constant image of a command and where its fields go (30_encoding.md R55). -/
structure Template where
  /-- The constant image; bytes at field offsets are placeholders. -/
  bytes : List Byte
  /-- Where the sequence byte goes. -/
  seqOff : Nat
  /-- First of three consecutive identifier bytes. -/
  idOff : Option Nat
  /-- Where the unit code goes. -/
  unitOff : Option Nat
  /-- Where the on/off flag goes. -/
  flagOff : Option Nat
  /-- The flag value this command inserts. -/
  flag : Option Byte
deriving DecidableEq, Repr, Inhabited

/-- The fields of a template as pairs of an offset and a width: 1, except the identifier's 3 (30_encoding.md R55). -/
def Template.fields (t : Template) : List (Nat × Nat) :=
  (t.seqOff, 1) :: ((t.idOff.map (·, 3)).toList ++ (t.unitOff.map (·, 1)).toList ++ (t.flagOff.map (·, 1)).toList)

/-- The conditions (1) to (5) of 30_encoding.md R55 on the template of kind `k`. Condition (2) only names `bytes[1]`;
a length of at least 2 makes it exist. -/
abbrev Template.WellFormed (k : CmdKind) (t : Template) : Prop :=
  (2 ≤ t.bytes.length ∧ t.bytes.length ≤ 256) ∧
  t.bytes.head? = some (BitVec.ofNat 8 (t.bytes.length - 1)) ∧
  (∀ f ∈ t.fields, 2 ≤ f.1 ∧ f.1 + f.2 ≤ t.bytes.length) ∧
  t.fields.Pairwise (fun f g => f.1 + f.2 ≤ g.1 ∨ g.1 + g.2 ≤ f.1) ∧
  (t.idOff.isSome = k.isLight ∧ t.unitOff.isSome = k.isLight ∧ t.flagOff.isSome = k.isLight ∧
    t.flag.isSome = k.isLight)

/-- The fields of `CFG` that the source does not fix, and the switch of the 48-bit decoder (00_scope.md R8). A lookup
table, "byte → optional text" there, is a list of codes and descriptions. -/
structure Cfg where
  /-- `false`: the source's 48-bit decode defect is reproduced; `true`: the corrected decoder (R63). -/
  u48Corrected : Bool
  rxtypeDesc : List (Byte × Text)
  ackDesc : List (Byte × AckDesc)
  l5SubtypeDesc : List (Byte × L5Subtype)
  l5CmdDesc : List (Byte × OnOff)
  sec1SubtypeDesc : List (Byte × Sec1Subtype)
  tplReset : Template
  tplGetStatus : Template
  tplResetTamper : Template
  tplLightOn : Template
  tplLightOff : Template
deriving DecidableEq, Repr, Inhabited

/-- `CFG.tpl[k]` (00_scope.md R8). -/
def Cfg.tpl (c : Cfg) : CmdKind → Template
  | .reset => c.tplReset
  | .getStatus => c.tplGetStatus
  | .resetTamper => c.tplResetTamper
  | .lightOn => c.tplLightOn
  | .lightOff => c.tplLightOff

/-- What 70_reset_and_hazards.md R131 requires before the first command: every template is well-formed. The lookup
tables may be anything. -/
abbrev Cfg.WellFormed (c : Cfg) : Prop :=
  (c.tpl .reset).WellFormed .reset ∧ (c.tpl .getStatus).WellFormed .getStatus ∧
  (c.tpl .resetTamper).WellFormed .resetTamper ∧ (c.tpl .lightOn).WellFormed .lightOn ∧
  (c.tpl .lightOff).WellFormed .lightOff

/-- FREE VALUE (assumption 1). The OPEN fields of R8 as the instantiation gives them: nothing is known of them. -/
opaque Config.given : Cfg

/-- Some well-formed configuration. It stands in for `Config.given` only where that is not well-formed, which R131
excludes, so that the configuration at reset is a well-formed one of which nothing else is known. -/
def Config.minimal : Cfg where
  u48Corrected := false
  rxtypeDesc := []
  ackDesc := []
  l5SubtypeDesc := []
  l5CmdDesc := []
  sec1SubtypeDesc := []
  tplReset := ⟨[2, 0, 0], 2, none, none, none, none⟩
  tplGetStatus := ⟨[2, 0, 0], 2, none, none, none, none⟩
  tplResetTamper := ⟨[2, 0, 0], 2, none, none, none, none⟩
  tplLightOn := ⟨[7, 0, 0, 0, 0, 0, 0, 0], 2, some 3, some 6, some 7, some 1⟩
  tplLightOff := ⟨[7, 0, 0, 0, 0, 0, 0, 0], 2, some 3, some 6, some 7, some 0⟩

/-- The configuration of the machine at reset: any well-formed one, with the switch at the value R8 gives it
(`false`). -/
def Config.atReset : Cfg :=
  { (if Config.given.WellFormed then Config.given else Config.minimal) with u48Corrected := false }

/-- FREE VALUE (assumption 2). The byte at an index of a command built from a template that is not well-formed, which
70_reset_and_hazards.md R131 excludes and for which no rule states the bytes: a function of the template, the allocated
number, the light operands and the index. -/
opaque Config.unstatedByte : Template → Nat → Option (Bytes3 × Byte) → Nat → Byte

/-- PRESUMED (assumption 3). The instantiation of the OPEN fields that 93_implementation_defined.md G3 to G11 supplies
from general knowledge; G12 has no default for RESET_TAMPER, so that template is an argument. The machine does not use
it: it is here so that the spec's instantiated test vectors can be stated. -/
def Config.generalKnowledge (tamper : Template) : Cfg where
  u48Corrected := false
  rxtypeDesc :=
    [(0x50, "310MHz".toList), (0x51, "315MHz".toList), (0x52, "433.92MHz receiver only".toList),
     (0x53, "433.92MHz transceiver".toList), (0x55, "868.00MHz".toList), (0x56, "868.00MHz FSK".toList),
     (0x57, "868.30MHz".toList), (0x58, "868.30MHz FSK".toList), (0x59, "868.35MHz".toList),
     (0x5A, "868.35MHz FSK".toList), (0x5B, "868.95MHz".toList)]
  ackDesc := [(0x00, .transmitOK), (0x01, .transmitDelayed), (0x02, .nakFrequencyLock), (0x03, .nakAddressNotAllowed)]
  l5SubtypeDesc := [(0x00, .lightwaveRFSiemens), (0x01, .emw100GAOEverflourish)]
  l5CmdDesc := [(0x00, .off), (0x01, .on)]
  sec1SubtypeDesc := [(0x00, .doorWindowSensor), (0x01, .motionSensor), (0x02, .remote)]
  tplReset := ⟨[0x0D, 0, 0, 0, 0, 0, 0, 0, 0, 0, 0, 0, 0, 0], 3, none, none, none, none⟩
  tplGetStatus := ⟨[0x0D, 0, 0, 0, 2, 0, 0, 0, 0, 0, 0, 0, 0, 0], 3, none, none, none, none⟩
  tplResetTamper := tamper
  tplLightOn := ⟨[0x0A, 0x14, 0, 0, 0, 0, 0, 0, 0, 0, 0], 3, some 4, some 7, some 8, some 0x01⟩
  tplLightOff := ⟨[0x0A, 0x14, 0, 0, 0, 0, 0, 0, 0, 0, 0], 3, some 4, some 7, some 8, some 0x00⟩

end Sys2Proof
end

