-- ==== Sys2Proof/Machine/State.lean ====
section
/-! DEFINITION. The state of one instance of the engine and its reset value (10_state.md R14, R27), the outputs of its
operations (00_scope.md R12), and the reasons a step can stop. -/

namespace Sys2Proof.Machine

/-- A decoded event, one case per packet type and `ready` (42_dispatch_decoders.md R86). -/
inductive Event
  | ready
  | status (subtype seq cmnd rxtype : Byte) (rxtypeDesc : Option Text) (fw : Byte)
  | response (subtype seq msg : Byte) (msgDesc : Option AckDesc)
  | lighting5 (subtype : Byte) (subtypeDesc : Option L5Subtype) (seq : Byte) (id : Text) (unit cmd : Byte)
      (cmdDesc : Option OnOff)
  | elec2 (subtype seq : Byte) (id : Text) (count : Byte) (instant totalRaw totalCenti : Nat)
  | security1 (subtype : Byte) (subtypeDesc : Option Sec1Subtype) (seq : Byte) (id : Text) (status battery : Byte)
deriving DecidableEq, Repr

/-- The diagnostics of the generic diagnostic channel (60_exceptions.md R110). -/
inductive Diag
  | unhandled (t : Option Byte)
  | shortPayload (t : Byte) (got need : Nat)
  | streamError (e : OpaqueName)
  | streamEnd
deriving DecidableEq, Repr

/-- What an operation hands back: the sequence number a command returns or the refusal of its identifier (R87), and
the result of a function run on its own (assumption 8). -/
inductive Value
  | seq (n : Nat)
  | parseError
  | idBytes (b : Bytes3)
  | number (n : Nat)
  | text (t : Text)
  | texts (ts : List Text)
deriving DecidableEq, Repr

/-- One entry of an operation's output (00_scope.md R12). `frame` records the hand-over from the reassembler to
`DISPATCH`, which a trace lists although no caller sees it (30_encoding.md R58). -/
inductive Output
  | frame (f : List Byte)
  | event (e : Event)
  | diag (d : Diag)
  | send (bytes : List Byte) (h : OpaqueName)
  | ret (v : Value)
  | complete (h : OpaqueName) (err : Option OpaqueName) (res : OpaqueName)
deriving DecidableEq, Repr

/-- The state of one engine instance. `buf`, `req` and `seq` are the whole mutable state the spec gives it (R14);
`FILL` is the length of `buf` (R15) and is not stored. `cfg` is the record `CFG`, which no operation writes (R8, R25).
`input` and `out` are the model's own (assumptions 4 and 5): the events the environment has raised and the engine has
not yet looked at, each an operation of R57, and everything put out so far, both oldest first. -/
structure State where
  /-- `BUF`: the bytes received since the last frame boundary, oldest first (R15). -/
  buf : List Byte
  /-- `REQ`: the total length of the frame being received, or 0 for "not yet known" (R16). -/
  req : Nat
  /-- `SEQ`: the value the next command will carry, 0 to 256 (R18). -/
  seq : Nat
  /-- `CFG`, fixed at instantiation (R8). -/
  cfg : Cfg
  /-- The model's own: the input events waiting at the ports, in order of delivery (R112, R113). -/
  input : List Instr
  /-- The model's own: the outputs of all operations so far, in order (R12, R35). -/
  out : List Output
deriving DecidableEq, Repr

/-- The reasons a step can stop with a fault: none. "No condition stops the engine" (60_exceptions.md R109) and it has
"no fault state, no stuck state, no halt" (R126); every abnormal condition is an output. Nothing raises one. -/
inductive Fault
deriving DecidableEq, Repr

/-- The reasons a step can be refused. No step is: every operation has its meaning, and the operations are the only
input events there are (R57, R112, R126). -/
inductive Refusal
  /-- Raised by an arm of `exec` for an operation that has no meaning yet; no arm is one. Safe: nothing can be proved
  of it. -/
  | notModelled (mnemonic : String)
deriving DecidableEq, Repr

/-- What a meaning answers. -/
abbrev Result := Host.Outcome State Fault Refusal

/-- The machine right after reset (R27, R128): `BUF` empty, `REQ` 0, `SEQ` 0; no event delivered and nothing put out
yet. The configuration is some well-formed one (assumption 1). -/
def State.reset : State where
  buf := []
  req := 0
  seq := 0
  cfg := Config.atReset
  input := []
  out := []

end Sys2Proof.Machine
end

