-- ==== Sys2Proof/Machine/Operands.lean ====
section
/-! DEFINITION. The operands of operations, computed: the lookup of a code in a `CFG` table (30_encoding.md R51), the
identifier of a light command (43_commands.md R90), the sequence byte (R89) and the bytes of a command (R91). -/

namespace Sys2Proof.Machine

/-- `lookup(code)`: the description a `CFG` table holds for a code, `none` for a code it does not hold (R51, R85). -/
def lookup {α : Type} : List (Byte × α) → Byte → Option α
  | [], _ => none
  | (k, d) :: rest, code => if k = code then some d else lookup rest code

/-- The text of an identifier after the prefix `0x`, which is "skipped without consuming a byte" (R90). -/
def afterPrefix : Text → Text
  | '0' :: 'x' :: u => u
  | t => t

/-- `PARSEID t`: three pairs of hex digits as three bytes; `none` is `ParseError` (R90). -/
def parseId (t : Text) : Option Bytes3 :=
  match afterPrefix t with
  | [h0, l0, h1, l1, h2, l2] =>
    match hexPair h0 l0, hexPair h1 l1, hexPair h2 l2 with
    | some b0, some b1, some b2 => some ⟨b0, b1, b2⟩
    | _, _, _ => none
  | _ => none

/-- `seq_wire(s) = s mod 256`: the byte a command carries for the allocated value `s` (R89). -/
def seqWire (n : Nat) : Byte := BitVec.ofNat 8 n

/-- The assignments of R91 to the template's image: the sequence byte, and for a light command the three identifier
bytes, the unit code and the template's flag. -/
def assemble (t : Template) (n : Nat) (light : Option (Bytes3 × Byte)) : List Byte :=
  let out := t.bytes.set t.seqOff (seqWire n)
  match t.idOff, t.unitOff, t.flagOff, t.flag, light with
  | some i, some u, some f, some v, some (id, unit) =>
    (((((out.set i id.b0).set (i + 1) id.b1).set (i + 2) id.b2).set u unit).set f v)
  | _, _, _, _, _ => out

/-- `build(tpl, s, id, unit)` for a command of kind `k` (R91). For a template that is not well-formed, which
70_reset_and_hazards.md R131 excludes, the length is the template's and every byte is a free value (assumption 2). -/
def build (k : CmdKind) (t : Template) (n : Nat) (light : Option (Bytes3 × Byte)) : List Byte :=
  if t.WellFormed k then assemble t n light
  else (List.range t.bytes.length).map (Config.unstatedByte t n light)

end Sys2Proof.Machine
end

