-- ==== Sys2Proof/Machine/Ops.lean ====
section
/-! DEFINITION. The named operations over the state: the four accesses to `BUF` (20_memory.md R30), the registers `REQ`
and `SEQ`, and the ways an operation puts out what it emits, raises, sends, returns and completes (00_scope.md R12).
RAISING A DIAGNOSTIC, which stands where a processor would take an exception, is `State.raise` (60_exceptions.md R117);
there is no return from it (R119). -/

namespace Sys2Proof.Machine

/-! ## The buffer -/

/-- `FILL`, the number of bytes in `BUF` (R15). -/
def State.fill (s : State) : Nat := s.buf.length

/-- `BUF[a]`; there is no byte at an index of `FILL` or above (R23). -/
def State.byteAt (s : State) (a : Nat) : Option Byte := s.buf[a]?

/-- `MemRead(a, n)`: the bytes `BUF[a] .. BUF[a+n-1]`, first byte first; it is used only where `a + n <= FILL`
(R12, R30). -/
def State.memRead (s : State) (a n : Nat) : List Byte := (s.buf.drop a).take n

/-- `MemWrite(FILL, 1, b); FILL <- FILL + 1`, the append of R30: the only write there is. -/
def State.memAppend (s : State) (b : Byte) : State := { s with buf := s.buf ++ [b] }

/-- The appends of a whole chunk, one byte after another (R67). -/
def State.memAppendAll (s : State) : List Byte → State
  | [] => s
  | b :: bs => (s.memAppend b).memAppendAll bs

/-- `BUF <- BUF[n:]; FILL <- FILL - n`, the removal of a consumed prefix (R30). -/
def State.memRemove (s : State) (n : Nat) : State := { s with buf := s.buf.drop n }

/-- A byte sequence as cells, the first at address `a`. -/
def cellsFrom (a : Nat) : List Byte → List Host.Cell
  | [] => []
  | b :: bs => (a, b) :: cellsFrom (a + 1) bs

/-- `BUF` as a list of addresses and bytes: index 0 is the length byte of the frame being received (R32). -/
def State.cells (s : State) : List Host.Cell := cellsFrom 0 s.buf

/-- The canonical form of `BUF`'s cells: the addresses are `a`, `a + 1`, ... in order, with no gap. -/
def Memory.wfFrom (a : Nat) : List Host.Cell → Bool
  | [] => true
  | c :: cs => c.1 == a && Memory.wfFrom (a + 1) cs

/-- The canonical form of the whole buffer: addresses 0 to `FILL - 1` (R23). An address not listed does not exist. -/
def Memory.wf (m : List Host.Cell) : Bool := Memory.wfFrom 0 m

/-! ## The registers -/

/-- `REQ <- v`. -/
def State.setReq (s : State) (v : Nat) : State := { s with req := v }

/-- `SEQ <- v`. -/
def State.setSeq (s : State) (v : Nat) : State := { s with seq := v }

/-- `CFG.SEQ_MAX`, fixed by the source (00_scope.md R8). -/
abbrev seqMax : Nat := 256

/-- The successor of a sequence number: 0 after `CFG.SEQ_MAX` (43_commands.md R88). -/
def seqNext (n : Nat) : Nat := if n = seqMax then 0 else n + 1

/-! ## Outputs -/

/-- Append to the outputs (R12). -/
def State.put (s : State) (os : List Output) : State := { s with out := s.out ++ os }

/-- `emit e`: append a decoded event (R12). -/
def State.emit (s : State) (e : Event) : State := s.put [.event e]

/-- `raise d`: append a diagnostic. It saves no state, changes no state and transfers control nowhere
(60_exceptions.md R117). -/
def State.raise (s : State) (d : Diag) : State := s.put [.diag d]

/-- `frame(f)`: the hand-over of a complete frame to `DISPATCH`, as a trace lists it (R12, R58). -/
def State.handOver (s : State) (f : List Byte) : State := s.put [.frame f]

/-- `send(bytes, h)`: one write request to the byte sink (R12, R40). -/
def State.send (s : State) (bytes : List Byte) (h : OpaqueName) : State := s.put [.send bytes h]

/-- `return v` (R12). -/
def State.giveBack (s : State) (v : Value) : State := s.put [.ret v]

/-- `complete h (err, res)`: forward a settled write to the caller (43_commands.md R100). -/
def State.complete (s : State) (h : OpaqueName) (err : Option OpaqueName) (res : OpaqueName) : State :=
  s.put [.complete h err res]

/-! ## The sequence allocator -/

/-- `ALLOC()`: the number allocated and the state with `SEQ` advanced (43_commands.md R88). -/
def State.allocate (s : State) : Nat × State := (s.seq, s.setSeq (seqNext s.seq))

end Sys2Proof.Machine
end

