-- ==== Sys2Proof/Machine/Commands.lean ====
section
/-! DEFINITION. The command encoders, the sequence allocator and the identifier parse (43_commands.md). -/

namespace Sys2Proof.Machine

/-- `ALLOC`, then `build`, then `send`, then `return`, in the order of R97. -/
def command (k : CmdKind) (light : Option (Bytes3 × Byte)) (h : OpaqueName) (s : State) : State :=
  let (n, s1) := s.allocate
  (s1.send (build k (s1.cfg.tpl k) n light) h).giveBack (.seq n)

/-- A light command: the identifier is parsed first, and a malformed one is refused with `ParseError` and no other
effect (R97, R99). -/
def lightCommand (k : CmdKind) (id : Text) (unit : Byte) (h : OpaqueName) (s : State) : State :=
  match parseId id with
  | none => s.giveBack .parseError
  | some b => command k (some (b, unit)) h s

/-- `CMD.RESET h` (R92). -/
def execCmdReset (h : OpaqueName) (s : State) : Result := .next (command .reset none h s)

/-- `CMD.STATUS h` (R93). -/
def execCmdStatus (h : OpaqueName) (s : State) : Result := .next (command .getStatus none h s)

/-- `CMD.TAMPER h` (R94). -/
def execCmdTamper (h : OpaqueName) (s : State) : Result := .next (command .resetTamper none h s)

/-- `CMD.LON id unit h` (R95). -/
def execCmdLon (id : Text) (unit : Byte) (h : OpaqueName) (s : State) : Result :=
  .next (lightCommand .lightOn id unit h s)

/-- `CMD.LOFF id unit h` (R96). -/
def execCmdLoff (id : Text) (unit : Byte) (h : OpaqueName) (s : State) : Result :=
  .next (lightCommand .lightOff id unit h s)

/-- `ALLOC`, run on its own: `SEQ` advances and the number is given back (R88; assumption 8). -/
def execAlloc (s : State) : Result := .next (s.allocate.2.giveBack (.seq s.allocate.1))

/-- `PARSEID t`, run on its own: it gives back the three bytes or `ParseError` (R90; assumption 8). -/
def execParseId (t : Text) (s : State) : Result :=
  .next (s.giveBack (match parseId t with | some b => .idBytes b | none => .parseError))

end Sys2Proof.Machine
end

