-- ==== Sys2Proof/Machine/Inputs.lean ====
section
/-! DEFINITION. The remaining input operations: the reset input (70_reset_and_hazards.md R127) and what the transport,
the byte source and the byte sink report (60_exceptions.md R114 to R116, 43_commands.md R100). -/

namespace Sys2Proof.Machine

/-- `RST`: `BUF` empty, `REQ` and `SEQ` 0, and no output (R127). -/
def execRst (s : State) : Result := .next (((s.memRemove s.fill).setReq 0).setSeq 0)

/-- `OPEN` emits `ready` and reads or writes no state (R114). -/
def execOpenLink (s : State) : Result := .next (s.emit .ready)

/-- `RXERR e` raises `StreamError(e)`; the reassembly state stays (R115). -/
def execRxerr (e : OpaqueName) (s : State) : Result := .next (s.raise (.streamError e))

/-- `RXEND` raises `StreamEnd`; a partial frame stays (R116). -/
def execRxend (s : State) : Result := .next (s.raise .streamEnd)

/-- `TXDONE h err res` forwards the settled write to the caller (R100). -/
def execTxdone (h : OpaqueName) (err : Option OpaqueName) (res : OpaqueName) (s : State) : Result :=
  .next (s.complete h err res)

end Sys2Proof.Machine
end

