-- ==== Sys2Proof/Machine/Codec.lean ====
section
/-! DEFINITION. The integer codec (40_integer_codec.md): `decode_uint32`, `decode_uint48` in its legacy and its
corrected form, and the scaling of the cumulative total (42_dispatch_decoders.md R81). All pure, on unbounded
naturals. -/

namespace Sys2Proof.Machine

/-- `decode_uint32(b)`: the first byte is weighted by 2^24 (R60). -/
def uint32 (b : Bytes4) : Nat :=
  b.b0.toNat * 2 ^ 24 + (b.b1.toNat <<< 16) + (b.b2.toNat <<< 8) + b.b3.toNat

/-- `decode_uint48(b)`, the normative legacy form: the byte at index 4 is read twice and the byte at index 5 never
(R61). -/
def uint48Legacy (b : Bytes6) : Nat :=
  b.b0.toNat * 2 ^ 40 + b.b1.toNat * 2 ^ 32 + b.b2.toNat * 2 ^ 24
    + (b.b3.toNat <<< 16) + (b.b4.toNat <<< 8) + b.b4.toNat

/-- `decode_uint48_corrected(b)` (R63). -/
def uint48Corrected (b : Bytes6) : Nat :=
  b.b0.toNat * 2 ^ 40 + b.b1.toNat * 2 ^ 32 + b.b2.toNat * 2 ^ 24
    + (b.b3.toNat <<< 16) + (b.b4.toNat <<< 8) + b.b5.toNat

/-- The 48-bit decoder that `CFG.u48_corrected` selects (R61, R63). -/
def uint48 (c : Cfg) (b : Bytes6) : Nat :=
  if c.u48Corrected then uint48Corrected b else uint48Legacy b

/-- `scale_centi(c)`: the count divided by `CFG.CAL` = 223666/1000 and rounded to the nearest hundredth, in hundredths
(R81). -/
def scaleCenti (c : Nat) : Nat := (c * 100000 + 111833) / 223666

/-- `decode_uint32 b`, run on its own: it gives back its value (R60; assumption 8). -/
def execDecodeUint32 (b : Bytes4) (s : State) : Result := .next (s.giveBack (.number (uint32 b)))

/-- `decode_uint48 b`, run on its own: it gives back its value (R61, R63; assumption 8). -/
def execDecodeUint48 (b : Bytes6) (s : State) : Result := .next (s.giveBack (.number (uint48 s.cfg b)))

end Sys2Proof.Machine
end

