-- ==== Sys2Proof/Machine/Hex.lean ====
section
/-! DEFINITION. Hex and identifier formatting (44_hex_format.md). `hex2` itself is in Decode.lean, where the trace
notation uses it too. -/

namespace Sys2Proof.Machine

/-- `to_hex(bytes, prefix?)`: each byte as two upper-case hex digits after the prefix; an absent prefix is the empty
text (R104). -/
def toHex (bytes : List Byte) (pre : Option Text) : List Text := bytes.map fun b => pre.getD [] ++ hex2 b

/-- `id_string(bytes)`: `"0x"` once, then two digits per byte in wire order (R106). -/
def idString (bytes : List Byte) : Text := '0' :: 'x' :: (toHex bytes none).flatten

/-- `to_hex b pre`, run on its own: it gives back its texts (R104; assumption 8). -/
def execToHex (bytes : List Byte) (pre : Option Text) (s : State) : Result :=
  .next (s.giveBack (.texts (toHex bytes pre)))

/-- `id_string b`, run on its own: it gives back its text (R106; assumption 8). -/
def execIdString (bytes : List Byte) (s : State) : Result := .next (s.giveBack (.text (idString bytes)))

end Sys2Proof.Machine
end

