-- ==== Sys2Proof/Machine/Decoders.lean ====
section
/-! DEFINITION. The dispatch table and the five packet decoders (42_dispatch_decoders.md). A decoder's event depends on
its payload and on `CFG` only (R83). -/

namespace Sys2Proof.Machine

/-- The event of a STATUS payload (R77). -/
def statusEvent (c : Cfg) (p : StatusPayload) : Event :=
  .status p.subtype p.seq p.cmnd p.rxtype (lookup c.rxtypeDesc p.rxtype) p.fw

/-- The event of a RESPONSE payload (R78). -/
def responseEvent (c : Cfg) (p : ResponsePayload) : Event :=
  .response p.subtype p.seq p.msg (lookup c.ackDesc p.msg)

/-- The event of a LIGHTING5 payload (R79). -/
def lighting5Event (c : Cfg) (p : Lighting5Payload) : Event :=
  .lighting5 p.subtype (lookup c.l5SubtypeDesc p.subtype) p.seq (idString p.id.toList) p.unit p.cmd
    (lookup c.l5CmdDesc p.cmd)

/-- The event of a SECURITY1 payload; status and battery are whole bytes (R82, R47). -/
def security1Event (c : Cfg) (p : Security1Payload) : Event :=
  .security1 p.subtype (lookup c.sec1SubtypeDesc p.subtype) p.seq (idString p.id.toList) p.status p.battery

/-- The event of an ELEC2 payload (R80). -/
def elec2Event (c : Cfg) (p : Elec2Payload) : Event :=
  let raw := uint48 c p.total
  .elec2 p.subtype p.seq (idString p.id.toList) p.count (uint32 p.instant) raw (scaleCenti raw)

/-- `DISPATCH(f)`: run the decoder the frame selects, or raise `Unhandled` or `ShortPayload` (R73 to R76). -/
def dispatchFrame (f : List Byte) (s : State) : State :=
  match selectFrame f with
  | .status p => s.emit (statusEvent s.cfg p)
  | .response p => s.emit (responseEvent s.cfg p)
  | .lighting5 p => s.emit (lighting5Event s.cfg p)
  | .security1 p => s.emit (security1Event s.cfg p)
  | .elec2 p => s.emit (elec2Event s.cfg p)
  | .unhandled t => s.raise (.unhandled t)
  | .short t got need => s.raise (.shortPayload t got need)

/-- `DISPATCH f` (R73). -/
def execDispatch (f : List Byte) (s : State) : Result := .next (dispatchFrame f s)

/-- `DEC.STATUS p` (R77). -/
def execDecStatus (p : StatusPayload) (s : State) : Result := .next (s.emit (statusEvent s.cfg p))

/-- `DEC.RESPONSE p` (R78). -/
def execDecResponse (p : ResponsePayload) (s : State) : Result := .next (s.emit (responseEvent s.cfg p))

/-- `DEC.LIGHTING5 p` (R79). -/
def execDecLighting5 (p : Lighting5Payload) (s : State) : Result := .next (s.emit (lighting5Event s.cfg p))

/-- `DEC.SECURITY1 p` (R82). -/
def execDecSecurity1 (p : Security1Payload) (s : State) : Result := .next (s.emit (security1Event s.cfg p))

/-- `DEC.ELEC2 p` (R80). -/
def execDecElec2 (p : Elec2Payload) (s : State) : Result := .next (s.emit (elec2Event s.cfg p))

/-- `UNHANDLED t` (R74, R75). -/
def execUnhandled (t : Option Byte) (s : State) : Result := .next (s.raise (.unhandled t))

end Sys2Proof.Machine
end

