-- ==== Sys2Proof/Machine/Flags.lean ====
section
/-! DEFINITION. The engine has no flags and no condition codes, and no operation sets a flag as a side effect
(10_state.md R20). What stands here are the two conditions the reassembler tests: the sentinel `REQ = 0`, and the
comparison of `FILL` with `REQ`. -/

namespace Sys2Proof.Machine

/-- The sentinel `REQ = 0`: "length not yet known" (R16, R20). -/
def State.lengthUnknown (s : State) : Bool := s.req == 0

/-- `FILL >= REQ`: the buffer holds the whole frame (R66). -/
def State.frameComplete (s : State) : Bool := s.req ≤ s.fill

end Sys2Proof.Machine
end

