-- ==== Sys2Proof/Machine/Reassembler.lean ====
section
/-! DEFINITION. The frame reassembler: `RXB` and `RXC` (41_reassembler.md). -/

namespace Sys2Proof.Machine

/-- `BUF[0] + 1`, the total length of the frame that begins the buffer (R16); 0, still unknown, for an empty buffer,
whose length byte has not come. -/
def frameLength : List Byte → Nat
  | [] => 0
  | l :: _ => l.toNat + 1

/-- `if REQ = 0 then REQ <- BUF[0] + 1` (R66). -/
def State.latchLength (s : State) : State :=
  if s.lengthUnknown then s.setReq (frameLength s.buf) else s

/-- A complete frame leaves the buffer: `f := MemRead(0, REQ); frame(f); BUF <- BUF[REQ:]; FILL <- FILL - REQ;
REQ <- 0` (R66, R67). -/
def State.deliverFrame (s : State) : State :=
  let f := s.memRead 0 s.req
  ((dispatchFrame f (s.handOver f)).memRemove s.req).setReq 0

/-- `RXB b`: one byte arrives (R66). -/
def execRxb (b : Byte) (s : State) : Result :=
  let s1 := (s.memAppend b).latchLength
  .next (if s1.frameComplete then s1.deliverFrame else s1)

/-- The loop of R67, with a bound on its turns. Every turn that goes on removes at least one byte, so `FILL` turns
are enough. -/
def drain : Nat → State → State
  | 0, s => s
  | turns + 1, s =>
    if s.fill = 0 then s
    else if s.latchLength.frameComplete then drain turns s.latchLength.deliverFrame
    else s.latchLength

/-- `RXC c`: one chunk arrives; the empty chunk is a no-op (R67). -/
def execRxc (c : List Byte) (s : State) : Result :=
  match c with
  | [] => .next s
  | b :: bs =>
    let s1 := s.memAppendAll (b :: bs)
    .next (drain s1.fill s1)

/-- `split` of R67 with a bound on the number of frames: the complete frames a byte sequence begins with, and the rest. -/
def splitAtMost : Nat → List Byte → List (List Byte) × List Byte
  | 0, s => ([], s)
  | _ + 1, [] => ([], [])
  | k + 1, l :: rest =>
    let n := l.toNat + 1
    if (l :: rest).length < n then ([], l :: rest)
    else
      let r := splitAtMost k ((l :: rest).drop n)
      ((l :: rest).take n :: r.1, r.2)

/-- `split(s)` of R67: a sequence holds at most as many frames as bytes. -/
def split (s : List Byte) : List (List Byte) × List Byte := splitAtMost s.length s

end Sys2Proof.Machine
end

