-- ==== Sys2Proof/Machine/Dispatch.lean ====
section
/-! DEFINITION. The meaning of each operation, one arm per constructor of `Instr`. -/

namespace Sys2Proof.Machine

def exec (i : Instr) (s : State) : Host.Outcome State Fault Refusal :=
  match i with
  | .rst => Sys2Proof.Machine.execRst s
  | .openLink => Sys2Proof.Machine.execOpenLink s
  | .rxb b => Sys2Proof.Machine.execRxb b s
  | .rxc c => Sys2Proof.Machine.execRxc c s
  | .rxerr e => Sys2Proof.Machine.execRxerr e s
  | .rxend => Sys2Proof.Machine.execRxend s
  | .dispatch f => Sys2Proof.Machine.execDispatch f s
  | .decStatus p => Sys2Proof.Machine.execDecStatus p s
  | .decResponse p => Sys2Proof.Machine.execDecResponse p s
  | .decLighting5 p => Sys2Proof.Machine.execDecLighting5 p s
  | .decSecurity1 p => Sys2Proof.Machine.execDecSecurity1 p s
  | .decElec2 p => Sys2Proof.Machine.execDecElec2 p s
  | .unhandled t => Sys2Proof.Machine.execUnhandled t s
  | .cmdReset h => Sys2Proof.Machine.execCmdReset h s
  | .cmdStatus h => Sys2Proof.Machine.execCmdStatus h s
  | .cmdTamper h => Sys2Proof.Machine.execCmdTamper h s
  | .cmdLon id unit h => Sys2Proof.Machine.execCmdLon id unit h s
  | .cmdLoff id unit h => Sys2Proof.Machine.execCmdLoff id unit h s
  | .txdone h err res => Sys2Proof.Machine.execTxdone h err res s
  | .alloc => Sys2Proof.Machine.execAlloc s
  | .parseId t => Sys2Proof.Machine.execParseId t s
  | .decodeUint32 b => Sys2Proof.Machine.execDecodeUint32 b s
  | .decodeUint48 b => Sys2Proof.Machine.execDecodeUint48 b s
  | .toHex bytes pre => Sys2Proof.Machine.execToHex bytes pre s
  | .idString bytes => Sys2Proof.Machine.execIdString bytes s

end Sys2Proof.Machine
end

