-- ==== Sys2Proof/Machine/Step.lean ====
section
/-! DEFINITION. One step: the oldest waiting input event, processed to completion (60_exceptions.md R113); and how an
event comes to wait. -/

namespace Sys2Proof.Machine

/-- One step. With no event waiting the engine is idle and its state survives (60_exceptions.md R125; assumption 6).
Otherwise the oldest event leaves the queue and its operation runs from start to end. -/
def step (s : State) : Host.Outcome State Fault Refusal :=
  match s.input with
  | [] => .next s
  | i :: rest => exec i { s with input := rest }

/-- The environment delivers an operation: it joins the waiting ones, last (R112). -/
def State.deliver (s : State) (i : Instr) : State := { s with input := s.input ++ [i] }

/-- The operation of a trace line is delivered (R58). A line that is no operation is no event: it delivers nothing, and
why is said (assumption 7). -/
def State.deliverLine (s : State) (line : Text) : Except DecodeError State :=
  match decode line with
  | .ok i => .ok (s.deliver i)
  | .error e => .error e

/-- The operation of a table word, placed where `step` looks for its next event (assumption 9). A word the frame decoder
refuses is no operation and places none. -/
def State.withFetchWord (s : State) (nbits w : Nat) : State :=
  match decodeTableWord nbits w with
  | some i => { s with input := i :: s.input }
  | none => s

/-- Operations run one after another, stopping where one does not go on (R35). -/
def execAll : List Instr → State → Host.Outcome State Fault Refusal
  | [], s => .next s
  | i :: is, s =>
    match exec i s with
    | .next s' => execAll is s'
    | .fault r => .fault r
    | .refused r => .refused r

end Sys2Proof.Machine
end

