-- ==== Sys2Proof/Safety.lean ====
section
/-! DEFINITION. The terms in which claims speak of runs: the invariants of 10_state.md R26 and what every entry of the
output history satisfies; which operations touch which half of the state (R14); the bytes received and the frames
emitted (41_reassembler.md R69); and what counts as a fault of the input (93_implementation_defined.md I8). -/

namespace Sys2Proof.Machine

/-- Items 1 to 3 of R26 on the receive state: the buffer is empty exactly when the length is unknown; otherwise `REQ`
is the first byte plus one and the frame is not complete. -/
abbrev RxInv (s : State) : Prop :=
  (s.buf = [] ↔ s.req = 0) ∧ ∀ l ∈ s.buf.head?, s.req = l.toNat + 1 ∧ s.buf.length < s.req

/-- The transmit state of R26: `SEQ` is at most 256. -/
abbrev SeqInv (s : State) : Prop := s.seq ≤ 256

/-- What an entry of the output history satisfies, whatever operation put it there: frames and sent commands have the
form of R41; a returned sequence number is at most 256 (R88); the readings of an ELEC2 event have their ranges and the
total is scaled from the raw value (R80, R86); a diagnostic speaks of an unknown tag (R74), or of a known one whose
payload is shorter than its format needs (R76). -/
def OutputOk : Output → Prop
  | .frame f => frameOk f = true
  | .send bytes _ => frameOk bytes = true
  | .ret (.seq n) => n ≤ 256
  | .event (.elec2 _ _ _ _ instant totalRaw totalCenti) =>
    instant < 2 ^ 32 ∧ totalRaw < 2 ^ 48 ∧ totalCenti = scaleCenti totalRaw
  | .diag (.unhandled (some t)) => isKnownTag t = false
  | .diag (.shortPayload t got need) => isKnownTag t = true ∧ got < need ∧ need = needOf t
  | _ => True

/-- What holds between steps, from reset on (R26), with a well-formed configuration (R131) and, of the events that
wait, operands as their rules give them (assumption 12). -/
structure Inv (s : State) : Prop where
  rx : RxInv s
  seq : SeqInv s
  cfg : s.cfg.WellFormed
  input : ∀ i ∈ s.input, i.operandsOk = true
  out : ∀ o ∈ s.out, OutputOk o

/-- The operations that take a received byte or chunk (R14). -/
def receives : Instr → Bool
  | .rxb _ => true
  | .rxc _ => true
  | _ => false

/-- The operations that may allocate a sequence number: the five commands, and `ALLOC` on its own (R14). -/
def allocates : Instr → Bool
  | .cmdReset _ => true
  | .cmdStatus _ => true
  | .cmdTamper _ => true
  | .cmdLon _ _ _ => true
  | .cmdLoff _ _ _ => true
  | .alloc => true
  | _ => false

/-- The bytes an operation receives from the byte source. -/
def received : Instr → List Byte
  | .rxb b => [b]
  | .rxc c => c
  | _ => []

/-- The frames of an output history, in order. -/
def framesOf (os : List Output) : List (List Byte) :=
  os.filterMap fun o => match o with | .frame f => some f | _ => none

/-- What `DISPATCH f` puts out under a configuration, on an engine that holds nothing. -/
def dispatchOutputs (c : Cfg) (f : List Byte) : List Output := (dispatchFrame f ⟨[], 0, 0, c, [], []⟩).out

/-- What the reassembler puts out for one complete frame: the hand-over, then the output of `DISPATCH`. -/
def frameOutputs (c : Cfg) (f : List Byte) : List Output := .frame f :: dispatchOutputs c f

/-- An event with its descriptions taken out: its raw fields (42_dispatch_decoders.md R86). -/
def Event.undescribed : Event → Event
  | .ready => .ready
  | .status subtype seq cmnd rxtype _ fw => .status subtype seq cmnd rxtype none fw
  | .response subtype seq msg _ => .response subtype seq msg none
  | .lighting5 subtype _ seq id unit cmd _ => .lighting5 subtype none seq id unit cmd none
  | .elec2 subtype seq id count instant totalRaw totalCenti =>
    .elec2 subtype seq id count instant totalRaw totalCenti
  | .security1 subtype _ seq id st battery => .security1 subtype none seq id st battery

/-- A fault of the input, which a claim about events must not build on: a known tag with a short payload
(93_implementation_defined.md I8, 42_dispatch_decoders.md R76). -/
def isInputFault : Output → Bool
  | .diag (.shortPayload _ _ _) => true
  | _ => false

/-- A run whose input was free of such faults. -/
def CleanInput (s : State) : Prop := ∀ o ∈ s.out, isInputFault o = false

/-- The environment keeps to its ports: every waiting event is an input operation of R57. -/
def Deliverable (s : State) : Prop := ∀ i ∈ s.input, i.isInput = true

/-- The command of a kind, with its token; the identifier and the unit go to the light commands only (R57, R87). -/
def commandOf (k : CmdKind) (id : Text) (unit : Byte) (h : OpaqueName) : Instr :=
  match k with
  | .reset => .cmdReset h
  | .getStatus => .cmdStatus h
  | .resetTamper => .cmdTamper h
  | .lightOn => .cmdLon id unit h
  | .lightOff => .cmdLoff id unit h

/-- `v` is the value of the hex digit `c`, of either case (30_encoding.md R59). -/
def IsHexDigit (c : Char) (v : Nat) : Prop :=
  v < 16 ∧ ("0123456789ABCDEF".toList[v]? = some c ∨ "0123456789abcdef".toList[v]? = some c)

/-- `hi` and `lo` are two hex digits whose byte is `b`, the first the high nibble (R59). -/
def IsHexPair (hi lo : Char) (b : Byte) : Prop :=
  ∃ h l, IsHexDigit hi h ∧ IsHexDigit lo l ∧ b.toNat = h * 16 + l

/-- `t` is an identifier text of the grammar of R59 with the bytes `b`: an optional `0x`, then three pairs of hex
digits. -/
def IsIdText (t : Text) (b : Bytes3) : Prop :=
  ∃ pre c0 c1 c2 c3 c4 c5, (pre = [] ∨ pre = ['0', 'x']) ∧ t = pre ++ [c0, c1, c2, c3, c4, c5] ∧
    IsHexPair c0 c1 b.b0 ∧ IsHexPair c2 c3 b.b1 ∧ IsHexPair c4 c5 b.b2

end Sys2Proof.Machine
end

