-- ==== Sys2Proof/Certificates/Slice0/Obligations.lean ====
section
/-! DEFINITION. The statements for the provers. Where a docstring names a decision D<n>, the point is the spec's own
choice (spec/92_eei_decisions.md); where it names an assumption, it is this model's (notes/assumptions). The fields
`input` and `out` are the model's own (assumptions 4 and 5): what a statement says of the outputs of an operation (R12)
it says of what is appended to `out`. -/

open Sys2Proof Sys2Proof.Machine

/-! ## Encodings -/

/-- The trace notation loses nothing: an operation written as a line (30_encoding.md, section 7, decision D29; for the
sub-operations and functions assumption 7) is decoded to itself, with every operand. -/
def Obligations.TraceLineRoundTrip : Prop :=
  ∀ i : Instr, i.WellFormed = true → decode (encode i) = .ok i

/-- The frame of a sub-operation is a frame (its length byte counts what follows) and is decoded to that
sub-operation, with every payload byte (30_encoding.md, sections 1 and 2, decisions D3, D5, D6). -/
def Obligations.PacketFrameRoundTrip : Prop :=
  ∀ (i : Instr) (f : List Byte), i.WellFormed = true → encodeFrame i = some f →
    frameOk f = true ∧ decodeFrame f = some i

/-- A frame that is decoded to one of the five decoders is exactly that decoder's frame: no byte of it is dropped, and
no other frame means the same. What is decoded is well-formed (30_encoding.md, sections 1 and 2, decision D5). -/
def Obligations.DecodedFrameKeepsEveryByte : Prop :=
  ∀ (f : List Byte) (i : Instr), decodeFrame f = some i →
    i.WellFormed = true ∧ ((∀ t, i ≠ .unhandled t) → encodeFrame i = some f)

/-- Some lines and frames, written out, decode to what they stand for. The frames follow 30_encoding.md R41 to R47 (the
offsets by decision D5, the pairing of tags by decision D6, the runt frame by R75 and decision D7); the lines follow R58
(decision D29), the `-` of `TXDONE` for an absent error by assumption 7 (vectors V97 and P2). -/
def Obligations.SpelledOutEncodingsDecode : Prop :=
  decode "RST".toList = .ok .rst ∧
  decode "RXC 0x04 0x02 0x01 0x07 0x00".toList = .ok (.rxc [0x04, 0x02, 0x01, 0x07, 0x00]) ∧
  decode "CMD.LON \"0x0A0B0C\" 1 h".toList = .ok (.cmdLon "0x0A0B0C".toList 1 ['h']) ∧
  decode "TXDONE h2 - r2".toList = .ok (.txdone ['h', '2'] none ['r', '2']) ∧
  decodeFrame [0x04, 0x02, 0x01, 0x07, 0x00] = some (.decResponse ⟨0x01, 0x07, 0x00, []⟩) ∧
  decodeFrame [0x08, 0x20, 0x01, 0x09, 0xA1, 0xB2, 0xC3, 0x04, 0x89] =
    some (.decSecurity1 ⟨0x01, 0x09, ⟨0xA1, 0xB2, 0xC3⟩, 0x04, 0x89, []⟩) ∧
  decodeFrame [0x00] = some (.unhandled none)

/-- Whatever line is decoded, the operation is well-formed. What well-formed bounds is this model's own reading of what
an operation can be given and of what the notation can write (assumptions 12 and 7). -/
def Obligations.DecodedLineIsWellFormed : Prop :=
  ∀ (line : Text) (i : Instr), decode line = .ok i → i.WellFormed = true

/-! ## The step and its invariant -/

/-- A step runs the operation of the oldest waiting event, after that event has left the queue (60_exceptions.md R113;
the queue is assumption 4); an idle engine keeps its state (60_exceptions.md R125; assumption 6). The operation that a
trace line or a table word decodes to is the one a step runs when it is delivered to an engine with nothing waiting, or
placed before what waits; a line that is no operation is no event and is refused by name when it is read (assumptions 7
and 9). -/
def Obligations.StepRunsTheOldestEvent : Prop :=
  (∀ (s : State) (i : Instr) (rest : List Instr), s.input = i :: rest → step s = exec i { s with input := rest }) ∧
  (∀ s : State, s.input = [] → step s = .next s) ∧
  (∀ (s : State) (line : Text) (i : Instr), s.input = [] → decode line = .ok i →
    ∃ t, s.deliverLine line = .ok t ∧ step t = exec i s) ∧
  (∀ (s : State) (nbits w : Nat) (i : Instr), decodeTableWord nbits w = some i →
    step (s.withFetchWord nbits w) = exec i s) ∧
  (∀ (s : State) (line : Text) (e : DecodeError), decode line = .error e → s.deliverLine line = .error e)

/-- Every step keeps the invariant: the receive and transmit state of 10_state.md R26, a well-formed configuration,
waiting events whose operands are as their rules give them (assumptions 4 and 12), and an output history (assumption 5)
in which every frame and every sent command has the form of R41, every returned number is at most 256, every ELEC2
reading is in its range and scaled, and every diagnostic speaks of an unknown tag or of a known one with too short a
payload. -/
def Obligations.EngineInvariantIsKept : Prop :=
  ∀ s t : State, Inv s → step s = .next t → Inv t

/-- The reset state meets the invariant. Its configuration is well-formed by assumption 1; nothing waits and nothing was
put out by assumptions 4 and 5. -/
def Obligations.EngineInvariantAtReset : Prop := Inv State.reset

/-- A step never writes the configuration (00_scope.md R8). Of the model's own fields: it only appends to the outputs
(assumption 5), and it takes the oldest waiting event, if there is one, and no other (assumption 4). -/
def Obligations.StepOnlyAppendsOutputs : Prop :=
  ∀ s t : State, step s = .next t →
    (∃ os, t.out = s.out ++ os) ∧ t.cfg = s.cfg ∧ t.input = s.input.tail

/-- Every operation is defined in every state and on every operand (60_exceptions.md, section 3, "Totality"). -/
def Obligations.EveryOperationGoesOn : Prop :=
  ∀ (i : Instr) (s : State), ∃ t, exec i s = .next t

/-- No run stops, however long and whatever the environment delivers (60_exceptions.md, section 1, "No condition stops
the engine"): `n` steps answer a next state in which the first `n` events have been taken (assumption 4), and where the
environment keeps to its ports it still does. -/
def Obligations.DeliverableRunNeverStops : Prop :=
  ∀ (n : Nat) (s : State), ∃ t : State, Sys2Proof.core.run n s = .next t ∧ t.input = s.input.drop n ∧
    t.cfg = s.cfg ∧ (Deliverable s → Deliverable t)

/-- Operations delivered one after another to an engine with nothing waiting are run in that order, each seeing the
state the one before left, and after as many steps nothing is waiting (20_memory.md R35, 60_exceptions.md R113). The
queue they wait in is assumption 4; that sub-operations and functions can wait in it too is assumption 10. -/
def Obligations.DeliveredOperationsRunInOrder : Prop :=
  ∀ (is : List Instr) (s : State), s.input = [] →
    Sys2Proof.core.run is.length (is.foldl State.deliver s : State) = execAll is s

/-- The two halves of the state share nothing (10_state.md R14): but for the reset input, only the receive operations
change the buffer or `REQ`, only the commands and the allocator change `SEQ`; nothing changes the configuration, nor
(assumption 4) what waits. -/
def Obligations.HalvesOfTheStateAreDisjoint : Prop :=
  ∀ (i : Instr) (s t : State), exec i s = .next t →
    (receives i = false → i ≠ .rst → t.buf = s.buf ∧ t.req = s.req ∧ ∀ a, t.byteAt a = s.byteAt a) ∧
    (allocates i = false → i ≠ .rst → t.seq = s.seq) ∧ t.cfg = s.cfg ∧ t.input = s.input

/-- No receive operation reads `SEQ` and no command reads `BUF` or `REQ` (10_state.md R14): two engines that differ in
the other half, in what is waiting and in what was put out before (assumptions 4 and 5), do the same to the half
concerned and put out the same. -/
def Obligations.EachHalfIgnoresTheOther : Prop :=
  (∀ (i : Instr) (s u s' u' : State), receives i = true → s.buf = u.buf → s.req = u.req → s.cfg = u.cfg →
    exec i s = .next s' → exec i u = .next u' →
    s'.buf = u'.buf ∧ s'.req = u'.req ∧ ∃ os, s'.out = s.out ++ os ∧ u'.out = u.out ++ os) ∧
  (∀ (i : Instr) (s u s' u' : State), allocates i = true → s.seq = u.seq → s.cfg = u.cfg →
    exec i s = .next s' → exec i u = .next u' →
    s'.seq = u'.seq ∧ ∃ os, s'.out = s.out ++ os ∧ u'.out = u.out ++ os)

/-! ## Reset and the reports of the link -/

/-- The reset state: the buffer empty, `FILL`, `REQ` and `SEQ` 0 (10_state.md, section 6, decision D15); no event
waiting and nothing put out (assumptions 4 and 5); the legacy 48-bit decoder selected (00_scope.md, section 5). -/
def Obligations.ResetStateIsEmpty : Prop :=
  State.reset.buf = [] ∧ State.reset.fill = 0 ∧ State.reset.req = 0 ∧ State.reset.seq = 0 ∧
  State.reset.input = [] ∧ State.reset.out = [] ∧ State.reset.cfg.u48Corrected = false

/-- `RST` sets the creation state and puts nothing out (70_reset_and_hazards.md, section 1, decision D27); what is
waiting, what was put out before and the configuration are not the reset's (assumption 5). -/
def Obligations.RstRestoresTheCreationState : Prop :=
  ∀ s : State, exec .rst s = .next { s with buf := [], req := 0, seq := 0 }

/-- `OPEN` emits `ready`, every time, and reads or writes no state (60_exceptions.md, section 2, decision D22). -/
def Obligations.OpenEmitsReady : Prop :=
  ∀ s : State, exec .openLink s = .next { s with out := s.out ++ [.event .ready] } ∧
    execAll [.openLink, .openLink] s = .next { s with out := s.out ++ [.event .ready, .event .ready] }

/-- R115: a stream error is reported and leaves the reassembly state and `SEQ` alone; the partial frame is completed by
whatever byte arrives next. -/
def Obligations.StreamErrorLeavesTheState : Prop :=
  ∀ (e : OpaqueName) (s : State),
    exec (.rxerr e) s = .next { s with out := s.out ++ [.diag (.streamError e)] } ∧
    ∀ b t u, exec (.rxb b) s = .next t → execAll [.rxerr e, .rxb b] s = .next u →
      u.buf = t.buf ∧ u.req = t.req ∧ framesOf u.out = framesOf t.out

/-- The end of the stream is reported and nothing else happens: a partial frame is kept, and a later byte continues it
(60_exceptions.md, section 2, decision D23). -/
def Obligations.StreamEndLeavesThePartialFrame : Prop :=
  ∀ s : State, exec .rxend s = .next { s with out := s.out ++ [.diag .streamEnd] } ∧
    ∀ b t u, exec (.rxb b) s = .next t → execAll [.rxend, .rxb b] s = .next u →
      u.buf = t.buf ∧ u.req = t.req ∧ framesOf u.out = framesOf t.out

/-- A settled write is forwarded with its token, its error if it has one, and its result; no state is read or written,
so a failed write does not give its sequence number back (43_commands.md R98, and section 5, decision D21). -/
def Obligations.WriteSettlementIsForwarded : Prop :=
  ∀ (h : OpaqueName) (err : Option OpaqueName) (res : OpaqueName) (s : State),
    exec (.txdone h err res) s = .next { s with out := s.out ++ [.complete h err res] }

/-! ## The reassembler -/

/-- `RXB` in a state that holds between steps: the byte is appended; the first byte of a frame makes its length known;
a frame that is not complete waits silently; one that is complete leaves the buffer and is dispatched in this same step
(41_reassembler.md, `RXB`, decision D3; `SEQ` and the configuration stay). -/
def Obligations.ByteIsAppendedOrCompletesItsFrame : Prop :=
  ∀ (b : Byte) (s : State), RxInv s → ∃ l rest, s.buf ++ [b] = l :: rest ∧
    ((l :: rest).length < l.toNat + 1 →
      exec (.rxb b) s = .next { s with buf := s.buf ++ [b], req := l.toNat + 1 }) ∧
    (l.toNat + 1 ≤ (l :: rest).length → (l :: rest).length = l.toNat + 1 ∧
      exec (.rxb b) s = .next { s with
        buf := [], req := 0, out := s.out ++ frameOutputs s.cfg (l :: rest) })

/-- `split` of R67 satisfies the equations that define it (41_reassembler.md, `RXC`, "Functional statement"). -/
def Obligations.SplitFollowsItsEquations : Prop :=
  split [] = ([], []) ∧
  ∀ (l : Byte) (rest : List Byte),
    (rest.length < l.toNat → split (l :: rest) = ([], l :: rest)) ∧
    (l.toNat ≤ rest.length →
      split (l :: rest) =
        ((l :: rest).take (l.toNat + 1) :: (split ((l :: rest).drop (l.toNat + 1))).1,
          (split ((l :: rest).drop (l.toNat + 1))).2))

/-- `RXC` computes `split` of the buffer and the chunk: it dispatches the complete frames in order and keeps the rest,
with `REQ` known exactly when the rest is not empty (41_reassembler.md, `RXC`, decisions D3, D4). -/
def Obligations.ChunkIsSplitAndDispatched : Prop :=
  ∀ (c : List Byte) (s : State), RxInv s →
    exec (.rxc c) s = .next { s with
      buf := (split (s.buf ++ c)).2
      req := (match (split (s.buf ++ c)).2 with | [] => 0 | l :: _ => l.toNat + 1)
      out := s.out ++ (split (s.buf ++ c)).1.flatMap (frameOutputs s.cfg) }

/-- `RXC c` and the run of `RXB` over its bytes put out the same, in the same order, and end in the same state
(41_reassembler.md R68, which the spec derives). -/
def Obligations.ChunkEqualsItsBytes : Prop :=
  ∀ (c : List Byte) (s : State), RxInv s → execAll (c.map .rxb) s = exec (.rxc c) s

/-- Chunk boundaries cannot be observed (41_reassembler.md R68, test property S1): however a byte sequence is cut into
chunks, the outputs and the end state are those of the one chunk. -/
def Obligations.ChunkBoundariesAreUnobservable : Prop :=
  ∀ (cs : List (List Byte)) (s : State), RxInv s → execAll (cs.map .rxc) s = exec (.rxc cs.flatten) s

/-- No byte is dropped, duplicated or reordered (41_reassembler.md R69, item 1): the frames put out so far followed by
the buffer grow by exactly the bytes received. In every state, reached or not. -/
def Obligations.ReceivedBytesAreAccountedFor : Prop :=
  ∀ (i : Instr) (s t : State), i ≠ .rst → exec i s = .next t →
    (framesOf t.out).flatten ++ t.buf = (framesOf s.out).flatten ++ s.buf ++ received i

/-- A stream that is a concatenation of frames, received from a frame boundary, gives those frames in order
(41_reassembler.md R69, item 4, test property S2). -/
def Obligations.StreamOfFramesIsRecovered : Prop :=
  ∀ (fs : List (List Byte)) (s : State), (∀ f ∈ fs, frameOk f = true) → s.buf = [] → s.req = 0 →
    exec (.rxc fs.flatten) s = .next { s with out := s.out ++ fs.flatMap (frameOutputs s.cfg) }

/-- A run of zero bytes at a frame boundary is that many frames of one byte, each reported as unhandled with no tag
(41_reassembler.md, "Extreme lengths", decision D7). -/
def Obligations.ZeroBytesAreRuntFrames : Prop :=
  ∀ (n : Nat) (s : State), s.buf = [] → s.req = 0 →
    exec (.rxc (List.replicate n 0x00)) s =
      .next { s with out := s.out ++ (List.replicate n [Output.frame [0x00], .diag (.unhandled none)]).flatten }

/-- The empty chunk changes nothing, in any state (41_reassembler.md, `RXC`, decision D4). -/
def Obligations.EmptyChunkChangesNothing : Prop :=
  ∀ s : State, exec (.rxc []) s = .next s

/-! ## Dispatch and the decoders -/

/-- R83: what a frame puts out depends on its payload and tag and on `CFG` only: not on the buffer, the registers,
earlier outputs, what is waiting, nor on the frame's length byte; the same payload twice gives the same event; and a
decoder run by itself is as pure. -/
def Obligations.DecodersArePure : Prop :=
  (∀ (f : List Byte) (s : State),
    exec (.dispatch f) s = .next { s with out := s.out ++ dispatchOutputs s.cfg f }) ∧
  (∀ (c : Cfg) (l l' : Byte) (r : List Byte), dispatchOutputs c (l :: r) = dispatchOutputs c (l' :: r)) ∧
  (∀ (f : List Byte) (s : State),
    execAll [.dispatch f, .dispatch f] s =
      .next { s with out := s.out ++ dispatchOutputs s.cfg f ++ dispatchOutputs s.cfg f }) ∧
  (∀ (i : Instr) (f : List Byte) (s : State), i.WellFormed = true → encodeFrame i = some f →
    exec i s = exec (.dispatch f) s)

/-- `DISPATCH` puts out exactly one of an event, `Unhandled`, and `ShortPayload`: never two, never none
(42_dispatch_decoders.md, section 2, decision D33). No other state changes. -/
def Obligations.DispatchPutsOutOneAnswer : Prop :=
  ∀ (f : List Byte) (s : State), ∃ o, exec (.dispatch f) s = .next { s with out := s.out ++ [o] } ∧
    ((∃ e, o = .event e ∧ e ≠ .ready) ∨ (∃ t, o = .diag (.unhandled t)) ∨
      ∃ t got need, o = .diag (.shortPayload t got need))

/-- A frame with an unknown tag, or with no tag, is reported as unhandled, whatever its payload; the tags known are the
five of 30_encoding.md, section 4 (42_dispatch_decoders.md, section 2, decisions D7, D34). -/
def Obligations.UnknownTagIsUnhandled : Prop :=
  (∀ (l t : Byte) (p : List Byte) (s : State), t ∉ [(0x01 : Byte), 0x02, 0x14, 0x20, 0x5A] →
    exec (.dispatch (l :: t :: p)) s = .next { s with out := s.out ++ [.diag (.unhandled (some t))] }) ∧
  (∀ (l : Byte) (s : State),
    exec (.dispatch [l]) s = .next { s with out := s.out ++ [.diag (.unhandled none)] }) ∧
  (∀ (t : Option Byte) (s : State),
    exec (.unhandled t) s = .next { s with out := s.out ++ [.diag (.unhandled t)] })

/-- A known tag with fewer payload bytes than its format needs is reported with the tag, the length and the need, and
no event is emitted (42_dispatch_decoders.md, section 2, decision D8; a fault of the input). -/
def Obligations.ShortPayloadIsReported : Prop :=
  ∀ (l : Byte) (tn : Byte × Nat) (p : List Byte) (s : State),
    tn ∈ [((0x01 : Byte), 5), (0x02, 3), (0x14, 7), (0x20, 7), (0x5A, 15)] → p.length < tn.2 →
    exec (.dispatch (l :: tn.1 :: p)) s =
      .next { s with out := s.out ++ [.diag (.shortPayload tn.1 p.length tn.2)] }

/-- A STATUS frame gives the `status` event with each field from its payload offset; what follows offset 4 is ignored
(30_encoding.md, section 2, 42_dispatch_decoders.md, section 3, decisions D5, D6, D9). -/
def Obligations.StatusFrameIsDecoded : Prop :=
  ∀ (l : Byte) (p : List Byte) (s : State) (h : 5 ≤ p.length),
    exec (.dispatch (l :: 0x01 :: p)) s = .next { s with out := s.out ++ [.event
      (.status p[0] p[1] p[2] p[3] (lookup s.cfg.rxtypeDesc p[3]) p[4])] }

/-- A RESPONSE frame gives the `response` event with each field from its payload offset; what follows offset 2 is
ignored (30_encoding.md, section 2, 42_dispatch_decoders.md, section 3, decisions D5, D6, D9). -/
def Obligations.ResponseFrameIsDecoded : Prop :=
  ∀ (l : Byte) (p : List Byte) (s : State) (h : 3 ≤ p.length),
    exec (.dispatch (l :: 0x02 :: p)) s = .next { s with out := s.out ++ [.event
      (.response p[0] p[1] p[2] (lookup s.cfg.ackDesc p[2]))] }

/-- A LIGHTING5 frame gives the `lighting5` event with each field from its payload offset and the identifier bytes in
wire order; what follows offset 6 is ignored (30_encoding.md, section 2, 42_dispatch_decoders.md, section 3, decisions
D5, D6, D9). -/
def Obligations.Lighting5FrameIsDecoded : Prop :=
  ∀ (l : Byte) (p : List Byte) (s : State) (h : 7 ≤ p.length),
    exec (.dispatch (l :: 0x14 :: p)) s = .next { s with out := s.out ++ [.event
      (.lighting5 p[0] (lookup s.cfg.l5SubtypeDesc p[0]) p[1]
        ("0x".toList ++ hex2 p[2] ++ hex2 p[3] ++ hex2 p[4]) p[5] p[6] (lookup s.cfg.l5CmdDesc p[6]))] }

/-- A SECURITY1 frame gives the `security1` event with each field from its payload offset, status and battery whole;
what follows offset 6 is ignored (30_encoding.md, section 2, 42_dispatch_decoders.md, section 3, decisions D5, D6,
D9). -/
def Obligations.Security1FrameIsDecoded : Prop :=
  ∀ (l : Byte) (p : List Byte) (s : State) (h : 7 ≤ p.length),
    exec (.dispatch (l :: 0x20 :: p)) s = .next { s with out := s.out ++ [.event
      (.security1 p[0] (lookup s.cfg.sec1SubtypeDesc p[0]) p[1]
        ("0x".toList ++ hex2 p[2] ++ hex2 p[3] ++ hex2 p[4]) p[5] p[6])] }

/-- An ELEC2 frame gives the `elec2` event: the identifier, the counter, the instantaneous reading as the big-endian
value of four bytes, the raw total by the decoder `CFG` selects, and the total in hundredths; what follows offset 14 is
ignored (30_encoding.md, section 2, 42_dispatch_decoders.md, section 3, decisions D5, D6, D9, D12, D13). -/
def Obligations.Elec2FrameIsDecoded : Prop :=
  ∀ (l : Byte) (p : List Byte) (s : State) (h : 15 ≤ p.length),
    exec (.dispatch (l :: 0x5A :: p)) s = .next { s with out := s.out ++ [.event
      (.elec2 p[0] p[1] ("0x".toList ++ hex2 p[2] ++ hex2 p[3]) p[4]
        (p[5] ++ p[6] ++ p[7] ++ p[8]).toNat
        (p[9] ++ p[10] ++ p[11] ++ p[12] ++ p[13] ++ (if s.cfg.u48Corrected then p[14] else p[13])).toNat
        (scaleCenti
          (p[9] ++ p[10] ++ p[11] ++ p[12] ++ p[13] ++ (if s.cfg.u48Corrected then p[14] else p[13])).toNat))] }

/-- The five decoders run on their payloads, each emitting one event with every field of the payload and leaving the
rest of the state alone (42_dispatch_decoders.md, section 3, decisions D5, D6). -/
def Obligations.DecodersEmitTheirEvents : Prop :=
  (∀ (p : StatusPayload) (s : State), exec (.decStatus p) s = .next { s with out := s.out ++ [.event
    (.status p.subtype p.seq p.cmnd p.rxtype (lookup s.cfg.rxtypeDesc p.rxtype) p.fw)] }) ∧
  (∀ (p : ResponsePayload) (s : State), exec (.decResponse p) s = .next { s with out := s.out ++ [.event
    (.response p.subtype p.seq p.msg (lookup s.cfg.ackDesc p.msg))] }) ∧
  (∀ (p : Lighting5Payload) (s : State), exec (.decLighting5 p) s = .next { s with out := s.out ++ [.event
    (.lighting5 p.subtype (lookup s.cfg.l5SubtypeDesc p.subtype) p.seq
      ("0x".toList ++ hex2 p.id.b0 ++ hex2 p.id.b1 ++ hex2 p.id.b2) p.unit p.cmd
      (lookup s.cfg.l5CmdDesc p.cmd))] }) ∧
  (∀ (p : Security1Payload) (s : State), exec (.decSecurity1 p) s = .next { s with out := s.out ++ [.event
    (.security1 p.subtype (lookup s.cfg.sec1SubtypeDesc p.subtype) p.seq
      ("0x".toList ++ hex2 p.id.b0 ++ hex2 p.id.b1 ++ hex2 p.id.b2) p.status p.battery)] }) ∧
  (∀ (p : Elec2Payload) (s : State), exec (.decElec2 p) s = .next { s with out := s.out ++ [.event
    (.elec2 p.subtype p.seq ("0x".toList ++ hex2 p.id.b0 ++ hex2 p.id.b1) p.count (uint32 p.instant)
      (uint48 s.cfg p.total) (scaleCenti (uint48 s.cfg p.total)))] })

/-- R85: a code that a `CFG` table does not hold has no description, one it holds has its own; and no code value of any
field of a payload that is long enough suppresses the event or raises a diagnostic: under any other tables the same
frame gives an event whose other fields are the same. -/
def Obligations.UnknownCodesNeverSuppressAnEvent : Prop :=
  (∀ (α : Type) (table : List (Byte × α)) (code : Byte),
    (lookup table code = none ↔ ∀ e ∈ table, e.1 ≠ code) ∧
    ∀ d, lookup table code = some d → (code, d) ∈ table) ∧
  (∀ (l : Byte) (tn : Byte × Nat) (p : List Byte) (s : State),
    tn ∈ [((0x01 : Byte), 5), (0x02, 3), (0x14, 7), (0x20, 7), (0x5A, 15)] → tn.2 ≤ p.length →
    ∃ e, exec (.dispatch (l :: tn.1 :: p)) s = .next { s with out := s.out ++ [.event e] } ∧
      ∀ c : Cfg, c.u48Corrected = s.cfg.u48Corrected →
        ∃ e', dispatchOutputs c (l :: tn.1 :: p) = [.event e'] ∧ e'.undescribed = e.undescribed)

/-- Two payloads that agree on the offsets a format lists give the same output, whatever follows and however much
(42_dispatch_decoders.md, section 4, decision D9). -/
def Obligations.TrailingBytesAreIgnored : Prop :=
  ∀ (c : Cfg) (l l' : Byte) (tn : Byte × Nat) (p q : List Byte),
    tn ∈ [((0x01 : Byte), 5), (0x02, 3), (0x14, 7), (0x20, 7), (0x5A, 15)] →
    tn.2 ≤ p.length → tn.2 ≤ q.length → p.take tn.2 = q.take tn.2 →
    dispatchOutputs c (l :: tn.1 :: p) = dispatchOutputs c (l' :: tn.1 :: q)

/-! ## Commands and the sequence allocator -/

/-- `ALLOC` returns `SEQ` and leaves its successor, 0 after 256 (43_commands.md, section 2, decision D14; run on its
own, it gives the number back by assumption 8). -/
def Obligations.AllocReturnsAndAdvances : Prop :=
  ∀ s : State, exec .alloc s = .next { s with
    seq := (if s.seq = 256 then 0 else s.seq + 1), out := s.out ++ [.ret (.seq s.seq)] }

/-- Allocations run through a cycle of 257 values: the `k`-th from a state with `SEQ = m` returns `(m + k) mod 257`; so
from reset 300 of them return 0 to 256 and then 0 to 42 (43_commands.md R102, which the spec derives; the start value
by decision D15). The allocations are `ALLOC` run on its own, whose `ret` entry is assumption 8. -/
def Obligations.AllocationsCountModulo257 : Prop :=
  (∀ (n : Nat) (s : State), s.seq ≤ 256 →
    execAll (List.replicate n .alloc) s = .next { s with
      seq := (s.seq + n) % 257
      out := s.out ++ (List.range n).map fun k => .ret (.seq ((s.seq + k) % 257)) }) ∧
  execAll (List.replicate 300 .alloc) State.reset = .next { State.reset with
    seq := 43, out := (List.range 257 ++ List.range 43).map fun k => .ret (.seq k) }

/-- R92, R93, R94: the reset, status and tamper commands are accepted in every state, whatever is waiting or was
reported: one send of the template with the sequence byte inserted, one return of the allocated number, and nothing
else changes but `SEQ`, which advances; in particular the buffer and `REQ` stay (R132). With a configuration that is
not well-formed the bytes, but for their number, are free (assumption 2). -/
def Obligations.PlainCommandsSendTheirTemplate : Prop :=
  ∀ (it : Instr × (Cfg → Template)) (h : OpaqueName) (s : State),
    it ∈ [(Instr.cmdReset h, Cfg.tplReset), (.cmdStatus h, Cfg.tplGetStatus), (.cmdTamper h, Cfg.tplResetTamper)] →
    ∃ bytes : List Byte,
      exec it.1 s = .next { s with
        seq := (if s.seq = 256 then 0 else s.seq + 1), out := s.out ++ [.send bytes h, .ret (.seq s.seq)] } ∧
      bytes.length = (it.2 s.cfg).bytes.length ∧
      (s.cfg.WellFormed → bytes = (it.2 s.cfg).bytes.set (it.2 s.cfg).seqOff (BitVec.ofNat 8 (s.seq % 256)))

/-- A light command with a well-formed identifier makes one send and returns the allocated number, and nothing else
changes but `SEQ`, which advances (43_commands.md, sections 3 and 4, decision D20). With a well-formed configuration,
which R131 asks for, the bytes sent are the template's with the sequence byte, the three identifier bytes, the unit code
and the template's flag inserted (decisions D16, D18); without one they are free but for their number (assumption 2). A
malformed identifier is the matter of MalformedIdentifierIsRefused. -/
def Obligations.LightCommandsSendTheirOperands : Prop :=
  ∀ (it : Instr × (Cfg → Template)) (id : Text) (b : Bytes3) (unit : Byte) (h : OpaqueName) (s : State),
    it ∈ [(Instr.cmdLon id unit h, Cfg.tplLightOn), (.cmdLoff id unit h, Cfg.tplLightOff)] →
    parseId id = some b →
    ∃ bytes : List Byte,
      exec it.1 s = .next { s with
        seq := (if s.seq = 256 then 0 else s.seq + 1), out := s.out ++ [.send bytes h, .ret (.seq s.seq)] } ∧
      bytes.length = (it.2 s.cfg).bytes.length ∧
      (s.cfg.WellFormed → ∃ io uo fo flag,
        (it.2 s.cfg).idOff = some io ∧ (it.2 s.cfg).unitOff = some uo ∧ (it.2 s.cfg).flagOff = some fo ∧
        (it.2 s.cfg).flag = some flag ∧
        bytes[(it.2 s.cfg).seqOff]? = some (BitVec.ofNat 8 (s.seq % 256)) ∧
        bytes[io]? = some b.b0 ∧ bytes[io + 1]? = some b.b1 ∧ bytes[io + 2]? = some b.b2 ∧
        bytes[uo]? = some unit ∧ bytes[fo]? = some flag ∧
        ∀ j, j ∉ [(it.2 s.cfg).seqOff, io, io + 1, io + 2, uo, fo] → bytes[j]? = (it.2 s.cfg).bytes[j]?)

/-- A light command with a malformed identifier returns `ParseError`, sends nothing and changes no state
(43_commands.md, section 5, decisions D19, D20). -/
def Obligations.MalformedIdentifierIsRefused : Prop :=
  ∀ (id : Text) (unit : Byte) (h : OpaqueName) (s : State), (¬ ∃ b, IsIdText id b) →
    exec (.cmdLon id unit h) s = .next { s with out := s.out ++ [.ret .parseError] } ∧
    exec (.cmdLoff id unit h) s = .next { s with out := s.out ++ [.ret .parseError] }

/-- What a command sends is one frame: fed back into an engine at a frame boundary, it comes out of the reassembler as
exactly itself (43_commands.md, `build`, and 30_encoding.md, section 5, decision D18). -/
def Obligations.SentCommandIsOneFrame : Prop :=
  ∀ (k : CmdKind) (n : Nat) (light : Option (Bytes3 × Byte)) (s : State), s.cfg.WellFormed → s.buf = [] →
    s.req = 0 →
    exec (.rxc (build k (s.cfg.tpl k) n light)) s = .next { s with
      out := s.out ++ frameOutputs s.cfg (build k (s.cfg.tpl k) n light) } ∧
    (build k (s.cfg.tpl k) n light)[1]? = (s.cfg.tpl k).bytes[1]?

/-- The round trip of test property S6, under the instantiation G5, G6 and G11 of the descriptions and the light-on
template (assumption 3, PRESUMED): a light-on command for any identifier and unit, fed back, gives a `lighting5` event
with that identifier, that unit, the sequence byte, the command byte 1 and the descriptions of G5 and G6; and the
event's identifier text is accepted again with the same bytes. -/
def Obligations.LightOnLoopsBack : Prop :=
  ∀ (tamper : Template) (b : Bytes3) (unit : Byte) (h : OpaqueName) (s : State),
    s.cfg = Config.generalKnowledge tamper → s.buf = [] → s.req = 0 →
    ∃ bytes idText,
      idText = "0x".toList ++ hex2 b.b0 ++ hex2 b.b1 ++ hex2 b.b2 ∧
      exec (.cmdLon idText unit h) s = .next { s with
        seq := (if s.seq = 256 then 0 else s.seq + 1), out := s.out ++ [.send bytes h, .ret (.seq s.seq)] } ∧
      exec (.rxc bytes) s = .next { s with out := s.out ++ [.frame bytes, .event
        (.lighting5 0x00 (some .lightwaveRFSiemens) (BitVec.ofNat 8 s.seq) idText unit 0x01 (some .on))] } ∧
      parseId idText = some b

/-- Any two consecutive accepted commands, of any kinds: the first returns `SEQ` and the second its successor, and their
sequence bytes agree exactly when the first returns 256, the value that travels as `0x00` like the 0 after it. Two
commands of one kind with the same operands carry the same bytes altogether exactly then (70_reset_and_hazards.md R135,
item 2, which the spec derives; decision D16; templates well-formed, R131). -/
def Obligations.WireByteAliasesOnlyAtTheWrap : Prop :=
  ∀ (k1 k2 : CmdKind) (id1 id2 : Text) (unit1 unit2 : Byte) (h1 h2 : OpaqueName) (s : State),
    s.cfg.WellFormed → s.seq ≤ 256 →
    (k1.isLight = true → ∃ b, parseId id1 = some b) → (k2.isLight = true → ∃ b, parseId id2 = some b) →
    ∃ bytes1 bytes2 n1 n2 t,
      execAll [commandOf k1 id1 unit1 h1, commandOf k2 id2 unit2 h2] s = .next t ∧
      t.out = s.out ++ [.send bytes1 h1, .ret (.seq n1), .send bytes2 h2, .ret (.seq n2)] ∧
      n1 = s.seq ∧ n2 = (if n1 = 256 then 0 else n1 + 1) ∧
      (∃ w1 w2, bytes1[(s.cfg.tpl k1).seqOff]? = some w1 ∧ bytes2[(s.cfg.tpl k2).seqOff]? = some w2 ∧
        (w1 = w2 ↔ n1 = 256) ∧ (n1 = 256 → w1 = 0x00)) ∧
      (k1 = k2 → (k1.isLight = true → id1 = id2 ∧ unit1 = unit2) → (bytes1 = bytes2 ↔ n1 = 256))

/-! ## Identifiers and hexadecimal text -/

/-- `PARSEID` accepts exactly the texts of the grammar and gives their bytes (30_encoding.md, section 7, decision
D19). -/
def Obligations.ParseIdFollowsTheGrammar : Prop :=
  ∀ (t : Text) (b : Bytes3), parseId t = some b ↔ IsIdText t b

/-- `PARSEID` gives back the three bytes of a text in the grammar, and `ParseError` for any other (43_commands.md,
section 3, decision D19; run on its own, by assumption 8). -/
def Obligations.ParseIdAnswers : Prop :=
  ∀ (t : Text) (s : State),
    (∀ b, IsIdText t b → exec (.parseId t) s = .next { s with out := s.out ++ [.ret (.idBytes b)] }) ∧
    ((¬ ∃ b, IsIdText t b) → exec (.parseId t) s = .next { s with out := s.out ++ [.ret .parseError] })

/-- The identifier of an event is accepted by the light commands with the same bytes; and the identifier of the bytes
of an accepted text is that text normalised: `0x` put before it if it is absent, digits upper-cased (44_hex_format.md
R107, which the spec derives). -/
def Obligations.IdentifierRoundTrip : Prop :=
  (∀ b : Bytes3, parseId (idString b.toList) = some b) ∧
  ∀ (t : Text) (b : Bytes3), parseId t = some b →
    idString b.toList = "0x".toList ++ (if t.take 2 = "0x".toList then t.drop 2 else t).map Char.toUpper

/-- R105: a byte as text is two characters, the digit of its high nibble and then of its low one, from "0" to "9" and
"A" to "F". -/
def Obligations.Hex2IsTwoUpperCaseDigits : Prop :=
  ∀ v : Byte, ∃ hi lo, hex2 v = [hi, lo] ∧
    "0123456789ABCDEF".toList[(v.extractLsb 7 4).toNat]? = some hi ∧
    "0123456789ABCDEF".toList[(v.extractLsb 3 0).toNat]? = some lo

/-- `to_hex` gives one text per byte, in order, each the prefix (empty when absent) and the byte's two digits;
`id_string` gives `0x` and then the digits of all its bytes, so `2 + 2n` characters (44_hex_format.md, decision D32;
run on their own, by assumption 8). -/
def Obligations.HexTextsAnswer : Prop :=
  (∀ (bytes : List Byte) (pre : Option Text) (s : State), ∃ ts,
    exec (.toHex bytes pre) s = .next { s with out := s.out ++ [.ret (.texts ts)] } ∧ ts.length = bytes.length ∧
    ∀ (j : Nat) (b : Byte), bytes[j]? = some b → ts[j]? = some (pre.getD [] ++ hex2 b)) ∧
  (∀ (bytes : List Byte) (s : State), ∃ t,
    exec (.idString bytes) s = .next { s with out := s.out ++ [.ret (.text t)] } ∧
    t.length = 2 + 2 * bytes.length ∧ t.take 2 = "0x".toList ∧
    ∀ (j : Nat) (b : Byte), bytes[j]? = some b → (t.drop (2 + 2 * j)).take 2 = hex2 b)

/-! ## The integer codec -/

/-- R60: `decode_uint32` weighs its first byte by 2^24 and joins the other three by shifts; that is the big-endian value
of the four bytes, below 2^32, never negative. -/
def Obligations.Uint32IsBigEndian : Prop :=
  (∀ b : Bytes4,
    uint32 b = b.b0.toNat * 2 ^ 24 + (b.b1.toNat <<< 16) + (b.b2.toNat <<< 8) + b.b3.toNat ∧
    uint32 b = (b.b0 ++ b.b1 ++ b.b2 ++ b.b3).toNat ∧ uint32 b < 2 ^ 32) ∧
  uint32 ⟨0, 0, 0, 0⟩ = 0 ∧ uint32 ⟨0xFF, 0xFF, 0xFF, 0xFF⟩ = 4294967295 ∧ uint32 ⟨0x80, 0, 0, 0⟩ = 2147483648 ∧
  uint32 ⟨0x00, 0x00, 0x01, 0x2C⟩ = 300

/-- Run on their own (assumption 8), `decode_uint32` gives back the big-endian value of its bytes, and `decode_uint48`
the value of its bytes with index 4 read twice and index 5 never, or, where `CFG` selects the corrected decoder, the
big-endian value of all six (40_integer_codec.md, decision D13). -/
def Obligations.CodecFunctionsAnswer : Prop :=
  (∀ (b : Bytes4) (s : State), exec (.decodeUint32 b) s = .next { s with out := s.out ++ [.ret (.number
    (b.b0 ++ b.b1 ++ b.b2 ++ b.b3).toNat)] }) ∧
  (∀ (b : Bytes6) (s : State), exec (.decodeUint48 b) s = .next { s with out := s.out ++ [.ret (.number
    (b.b0 ++ b.b1 ++ b.b2 ++ b.b3 ++ b.b4 ++ (if s.cfg.u48Corrected then b.b5 else b.b4)).toNat)] })

/-- The laws of the codec (40_integer_codec.md R64, which the spec derives): ranges, injectivity, low bytes; the legacy
48-bit decoder identifies all 256 values of its last byte. -/
def Obligations.CodecLaws : Prop :=
  (∀ b : Bytes4, uint32 b < 2 ^ 32 ∧ uint32 b % 256 = b.b3.toNat) ∧
  (∀ b c : Bytes4, uint32 b = uint32 c → b = c) ∧
  (∀ b : Bytes6, uint48Legacy b < 2 ^ 48 ∧ uint48Legacy b % 256 = b.b4.toNat ∧
    uint48Legacy b / 256 % 256 = b.b4.toNat) ∧
  (∀ (b : Bytes6) (v : Byte), uint48Legacy { b with b5 := v } = uint48Legacy b) ∧
  (∀ b c : Bytes6, uint48Legacy b = uint48Legacy c → { b with b5 := c.b5 } = c)

/-- The legacy and the corrected value differ by the last byte minus the fifth, so they agree exactly when these two
bytes do (40_integer_codec.md, `decode_uint48_corrected`, decision D13). -/
def Obligations.LegacyDiffersByTheLastBytes : Prop :=
  ∀ b : Bytes6, uint48Legacy b + b.b5.toNat = uint48Corrected b + b.b4.toNat ∧
    (uint48Legacy b = uint48Corrected b ↔ b.b5 = b.b4)

/-- The scaled total is the integer nearest to the count divided by 223.666, in hundredths, strictly nearer than any
tie; it is monotone; its values at 0 and at 2^48 - 1 are those the spec gives (42_dispatch_decoders.md, `scale_centi`,
decision D12). -/
def Obligations.ScaledTotalIsTheNearestHundredth : Prop :=
  (∀ c : Nat, 2 * (c * 100000) < 223666 * (2 * scaleCenti c + 1) ∧
    223666 * (2 * scaleCenti c) < 2 * (c * 100000) + 223666) ∧
  (∀ c d : Nat, c ≤ d → scaleCenti c ≤ scaleCenti d) ∧
  scaleCenti 0 = 0 ∧ scaleCenti (2 ^ 48 - 1) = 125846117295724

/-! ## The buffer as memory -/

/-- The cells of the buffer are exactly its bytes: index `a` holds `b` when `BUF[a]` is `b`, and nothing is held at
`FILL` or above (10_state.md R23, 20_memory.md R30); an append writes the one byte at `FILL` and leaves the others. -/
def Obligations.BufferCellsAreItsBytes : Prop :=
  (∀ (s : State) (a : Nat) (b : Byte), (a, b) ∈ s.cells ↔ s.byteAt a = some b) ∧
  (∀ (s : State) (a : Nat), s.fill ≤ a → s.byteAt a = none) ∧
  (∀ (s : State) (b : Byte) (a : Nat), (s.memAppend b).byteAt a = if a = s.fill then some b else s.byteAt a)
end

