-- ==== Sys2Proof/Laws/Decode.lean ====
section
/-! SUPPORT. What each piece of the two decoders does with what its encoder writes. -/

namespace Sys2Proof

/-! ## Hexadecimal -/

/-- A digit is read back as its value. -/
theorem hexVal_hexDigit (n : Nat) (h : n < 16) : hexVal (hexDigit n) = some n := by
  revert h; revert n; decide

/-- The two digits of a byte are read back as the byte. -/
theorem hexPair_hex2 (v : Byte) : hexPair (hexDigit (v.toNat / 16)) (hexDigit (v.toNat % 16)) = some v := by
  have hv := v.isLt
  unfold hexPair
  rw [hexVal_hexDigit _ (by omega), hexVal_hexDigit _ (by omega)]
  simp only [Option.some.injEq]
  rw [show v.toNat / 16 * 16 + v.toNat % 16 = v.toNat by omega, BitVec.ofNat_toNat, BitVec.setWidth_eq]

/-- A hex digit is a visible ASCII character, neither a space nor a double quote. -/
theorem hexDigit_plain (n : Nat) (h : n < 16) : hexDigit n ≠ ' ' ∧ hexDigit n ≠ '"' := by
  revert h; revert n; decide

/-- The word of a byte is read back as the byte. -/
@[simp] theorem byteOfWord_wordOfByte (b : Byte) : byteOfWord (wordOfByte b) = some b := hexPair_hex2 b

/-- The words of bytes are read back as the bytes. -/
@[simp] theorem bytesOfWords_map (bs : List Byte) : bytesOfWords (bs.map wordOfByte) = some bs := by
  induction bs with
  | nil => rfl
  | cons b bs ih => simp [bytesOfWords, ih]

/-! ## Words and quotes -/

/-- A word as the notation writes it: some characters, none of them a space or a double quote. -/
def PlainWord (w : Text) : Prop := w ≠ [] ∧ ' ' ∉ w ∧ '"' ∉ w

theorem plainWord_wordOfByte (b : Byte) : PlainWord (wordOfByte b) := by
  have hb := b.isLt
  have h1 := hexDigit_plain (b.toNat / 16) (by omega)
  have h2 := hexDigit_plain (b.toNat % 16) (by omega)
  refine ⟨by simp [wordOfByte], ?_, ?_⟩ <;>
    simp [wordOfByte, hex2, h1.1.symm, h2.1.symm, h1.2.symm, h2.2.symm]

theorem plainWord_of_nameOk {n : OpaqueName} (h : nameOk n = true) : PlainWord n := by
  simp only [nameOk, Bool.and_eq_true, List.all_eq_true, bne_iff_ne, ne_eq, Bool.not_eq_true'] at h
  obtain ⟨⟨h1, -⟩, h3⟩ := h
  refine ⟨by rintro rfl; simp at h1, fun hm => ?_, fun hm => ?_⟩
  · have := h3 _ hm; simp at this
  · have := h3 _ hm; simp at this

theorem plainWord_opName (o : Op) : PlainWord o.name := by
  unfold PlainWord; cases o <;> decide

/-- A mnemonic is read back as its operation. -/
@[simp] theorem Op.ofName_name (o : Op) : Op.ofName o.name = some o := by cases o <;> decide

theorem splitWords_word_space (w r : Text) (h : ' ' ∉ w) : splitWords (w ++ ' ' :: r) = (w, words r) := by
  induction w with
  | nil => simp [splitWords, words]
  | cons c w ih =>
    simp only [List.mem_cons, not_or] at h
    simp [splitWords, ih h.2, Ne.symm h.1]

theorem splitWords_word (w : Text) (h : ' ' ∉ w) : splitWords w = (w, []) := by
  induction w with
  | nil => rfl
  | cons c w ih =>
    simp only [List.mem_cons, not_or] at h
    simp [splitWords, ih h.2, Ne.symm h.1]

theorem flushWord_of_ne {w : Text} (h : w ≠ []) (ws : List Text) : flushWord (w, ws) = w :: ws := by
  cases w with
  | nil => exact absurd rfl h
  | cons c w => rfl

/-- Words written with spaces between them are read back. -/
theorem words_unwords (ws : List Text) (h : ∀ w ∈ ws, PlainWord w) : words (unwords ws) = ws := by
  induction ws with
  | nil => rfl
  | cons w ws ih =>
    have hw := h w (by simp)
    cases ws with
    | nil => simp [unwords, words, splitWords_word w hw.2.1, flushWord_of_ne hw.1]
    | cons v vs =>
      have := ih fun u hu => h u (List.mem_cons_of_mem _ hu)
      simp only [unwords, words] at this ⊢
      rw [splitWords_word_space w _ hw.2.1, flushWord_of_ne hw.1]
      simpa [words] using this

/-- A space after the last word changes nothing. -/
theorem words_append_space (t : Text) : words (t ++ [' ']) = words t := by
  have : splitWords (t ++ [' ']) = splitWords t := by
    induction t with
    | nil => rfl
    | cons c t ih => simp [splitWords, ih]
  simp [words, this]

/-- A space before the first word changes nothing. -/
theorem words_space (t : Text) : words (' ' :: t) = words t := by simp [words, splitWords, flushWord]

theorem quote_not_mem_unwords (ws : List Text) (h : ∀ w ∈ ws, PlainWord w) : '"' ∉ unwords ws := by
  induction ws with
  | nil => simp [unwords]
  | cons w ws ih =>
    have hw := (h w (by simp)).2.2
    cases ws with
    | nil => simpa [unwords] using hw
    | cons v vs => simp [unwords, hw, ih fun u hu => h u (List.mem_cons_of_mem _ hu)]

theorem cutQuote_none {t : Text} (h : '"' ∉ t) : cutQuote t = none := by
  induction t with
  | nil => rfl
  | cons c t ih =>
    simp only [List.mem_cons, not_or] at h
    simp [cutQuote, Ne.symm h.1, ih h.2]

theorem cutQuote_append {a : Text} (h : '"' ∉ a) (b : Text) : cutQuote (a ++ '"' :: b) = some (a, b) := by
  induction a with
  | nil => simp [cutQuote]
  | cons c a ih =>
    simp only [List.mem_cons, not_or] at h
    simp [cutQuote, Ne.symm h.1, ih h.2]

theorem cutLastQuote_append {b : Text} (h : '"' ∉ b) (a : Text) : cutLastQuote (a ++ '"' :: b) = some (a, b) := by
  have : (a ++ '"' :: b).reverse = b.reverse ++ '"' :: a.reverse := by simp
  rw [cutLastQuote, this, cutQuote_append (by simpa using h)]
  simp

/-- A line is read back cut up as it was written; without a quoted text there are no words after one. -/
theorem scanLine_renderLine (l : Line) (hpre : ∀ w ∈ l.pre, PlainWord w) (hpost : ∀ w ∈ l.post, PlainWord w)
    (hq : l.quoted = none → l.post = []) : scanLine (renderLine l) = some l := by
  obtain ⟨pre, quoted, post⟩ := l
  dsimp only at hpre hpost hq
  have hp := quote_not_mem_unwords pre hpre
  cases quoted with
  | none =>
    rw [hq rfl]
    simp [renderLine, scanLine, cutQuote_none hp, words_unwords pre hpre]
  | some q =>
    have hcut : ∀ r, cutQuote (unwords pre ++ ' ' :: '"' :: r) = some (unwords pre ++ [' '], r) := fun r => by
      rw [show unwords pre ++ ' ' :: '"' :: r = (unwords pre ++ [' ']) ++ '"' :: r by simp]
      exact cutQuote_append (by simp [hp]) r
    cases post with
    | nil =>
      simp [renderLine, scanLine, hcut, cutLastQuote_append, words_append_space, words_unwords pre hpre]
      rfl
    | cons v vs =>
      have hv : '"' ∉ ' ' :: unwords (v :: vs) := by simp [quote_not_mem_unwords _ hpost]
      simp [renderLine, scanLine, hcut, cutLastQuote_append hv, words_append_space, words_unwords pre hpre, words_space,
        words_unwords _ hpost]

/-! ## Frames -/

/-- The frame of a payload that fits is a frame of R41. -/
theorem frameOk_frameOf (tag : Byte) (p : List Byte) (h : p.length ≤ 254) : frameOk (frameOf tag p) = true := by
  simp [frameOk, frameOf]
  omega

end Sys2Proof
end

