-- ==== Sys2Proof/Laws/State.lean ====
section
/-! SUPPORT. One lemma per field per update of the state, so that no proof unfolds a record update. -/

namespace Sys2Proof.Machine

@[simp] theorem State.memAppend_buf (s : State) (b : Byte) : (s.memAppend b).buf = s.buf ++ [b] := rfl
@[simp] theorem State.memAppend_req (s : State) (b : Byte) : (s.memAppend b).req = s.req := rfl
@[simp] theorem State.memAppend_seq (s : State) (b : Byte) : (s.memAppend b).seq = s.seq := rfl
@[simp] theorem State.memAppend_cfg (s : State) (b : Byte) : (s.memAppend b).cfg = s.cfg := rfl
@[simp] theorem State.memAppend_input (s : State) (b : Byte) : (s.memAppend b).input = s.input := rfl
@[simp] theorem State.memAppend_out (s : State) (b : Byte) : (s.memAppend b).out = s.out := rfl

@[simp] theorem State.memRemove_buf (s : State) (n : Nat) : (s.memRemove n).buf = s.buf.drop n := rfl
@[simp] theorem State.memRemove_req (s : State) (n : Nat) : (s.memRemove n).req = s.req := rfl
@[simp] theorem State.memRemove_seq (s : State) (n : Nat) : (s.memRemove n).seq = s.seq := rfl
@[simp] theorem State.memRemove_cfg (s : State) (n : Nat) : (s.memRemove n).cfg = s.cfg := rfl
@[simp] theorem State.memRemove_input (s : State) (n : Nat) : (s.memRemove n).input = s.input := rfl
@[simp] theorem State.memRemove_out (s : State) (n : Nat) : (s.memRemove n).out = s.out := rfl

@[simp] theorem State.setReq_buf (s : State) (v : Nat) : (s.setReq v).buf = s.buf := rfl
@[simp] theorem State.setReq_req (s : State) (v : Nat) : (s.setReq v).req = v := rfl
@[simp] theorem State.setReq_seq (s : State) (v : Nat) : (s.setReq v).seq = s.seq := rfl
@[simp] theorem State.setReq_cfg (s : State) (v : Nat) : (s.setReq v).cfg = s.cfg := rfl
@[simp] theorem State.setReq_input (s : State) (v : Nat) : (s.setReq v).input = s.input := rfl
@[simp] theorem State.setReq_out (s : State) (v : Nat) : (s.setReq v).out = s.out := rfl

@[simp] theorem State.setSeq_buf (s : State) (v : Nat) : (s.setSeq v).buf = s.buf := rfl
@[simp] theorem State.setSeq_req (s : State) (v : Nat) : (s.setSeq v).req = s.req := rfl
@[simp] theorem State.setSeq_seq (s : State) (v : Nat) : (s.setSeq v).seq = v := rfl
@[simp] theorem State.setSeq_cfg (s : State) (v : Nat) : (s.setSeq v).cfg = s.cfg := rfl
@[simp] theorem State.setSeq_input (s : State) (v : Nat) : (s.setSeq v).input = s.input := rfl
@[simp] theorem State.setSeq_out (s : State) (v : Nat) : (s.setSeq v).out = s.out := rfl

@[simp] theorem State.put_buf (s : State) (os : List Output) : (s.put os).buf = s.buf := rfl
@[simp] theorem State.put_req (s : State) (os : List Output) : (s.put os).req = s.req := rfl
@[simp] theorem State.put_seq (s : State) (os : List Output) : (s.put os).seq = s.seq := rfl
@[simp] theorem State.put_cfg (s : State) (os : List Output) : (s.put os).cfg = s.cfg := rfl
@[simp] theorem State.put_input (s : State) (os : List Output) : (s.put os).input = s.input := rfl
@[simp] theorem State.put_out (s : State) (os : List Output) : (s.put os).out = s.out ++ os := rfl

@[simp] theorem State.emit_buf (s : State) (e : Event) : (s.emit e).buf = s.buf := rfl
@[simp] theorem State.emit_req (s : State) (e : Event) : (s.emit e).req = s.req := rfl
@[simp] theorem State.emit_seq (s : State) (e : Event) : (s.emit e).seq = s.seq := rfl
@[simp] theorem State.emit_cfg (s : State) (e : Event) : (s.emit e).cfg = s.cfg := rfl
@[simp] theorem State.emit_input (s : State) (e : Event) : (s.emit e).input = s.input := rfl
@[simp] theorem State.emit_out (s : State) (e : Event) : (s.emit e).out = s.out ++ [.event e] := rfl

@[simp] theorem State.raise_buf (s : State) (d : Diag) : (s.raise d).buf = s.buf := rfl
@[simp] theorem State.raise_req (s : State) (d : Diag) : (s.raise d).req = s.req := rfl
@[simp] theorem State.raise_seq (s : State) (d : Diag) : (s.raise d).seq = s.seq := rfl
@[simp] theorem State.raise_cfg (s : State) (d : Diag) : (s.raise d).cfg = s.cfg := rfl
@[simp] theorem State.raise_input (s : State) (d : Diag) : (s.raise d).input = s.input := rfl
@[simp] theorem State.raise_out (s : State) (d : Diag) : (s.raise d).out = s.out ++ [.diag d] := rfl

@[simp] theorem State.handOver_buf (s : State) (f : List Byte) : (s.handOver f).buf = s.buf := rfl
@[simp] theorem State.handOver_req (s : State) (f : List Byte) : (s.handOver f).req = s.req := rfl
@[simp] theorem State.handOver_seq (s : State) (f : List Byte) : (s.handOver f).seq = s.seq := rfl
@[simp] theorem State.handOver_cfg (s : State) (f : List Byte) : (s.handOver f).cfg = s.cfg := rfl
@[simp] theorem State.handOver_input (s : State) (f : List Byte) : (s.handOver f).input = s.input := rfl
@[simp] theorem State.handOver_out (s : State) (f : List Byte) : (s.handOver f).out = s.out ++ [.frame f] := rfl

@[simp] theorem State.send_buf (s : State) (bytes : List Byte) (h : OpaqueName) : (s.send bytes h).buf = s.buf := rfl
@[simp] theorem State.send_req (s : State) (bytes : List Byte) (h : OpaqueName) : (s.send bytes h).req = s.req := rfl
@[simp] theorem State.send_seq (s : State) (bytes : List Byte) (h : OpaqueName) : (s.send bytes h).seq = s.seq := rfl
@[simp] theorem State.send_cfg (s : State) (bytes : List Byte) (h : OpaqueName) : (s.send bytes h).cfg = s.cfg := rfl
@[simp] theorem State.send_input (s : State) (bytes : List Byte) (h : OpaqueName) : (s.send bytes h).input = s.input := rfl
@[simp] theorem State.send_out (s : State) (bytes : List Byte) (h : OpaqueName) : (s.send bytes h).out = s.out ++ [.send bytes h] := rfl

@[simp] theorem State.giveBack_buf (s : State) (v : Value) : (s.giveBack v).buf = s.buf := rfl
@[simp] theorem State.giveBack_req (s : State) (v : Value) : (s.giveBack v).req = s.req := rfl
@[simp] theorem State.giveBack_seq (s : State) (v : Value) : (s.giveBack v).seq = s.seq := rfl
@[simp] theorem State.giveBack_cfg (s : State) (v : Value) : (s.giveBack v).cfg = s.cfg := rfl
@[simp] theorem State.giveBack_input (s : State) (v : Value) : (s.giveBack v).input = s.input := rfl
@[simp] theorem State.giveBack_out (s : State) (v : Value) : (s.giveBack v).out = s.out ++ [.ret v] := rfl

@[simp] theorem State.complete_buf (s : State) (h : OpaqueName) (err : Option OpaqueName) (res : OpaqueName) : (s.complete h err res).buf = s.buf := rfl
@[simp] theorem State.complete_req (s : State) (h : OpaqueName) (err : Option OpaqueName) (res : OpaqueName) : (s.complete h err res).req = s.req := rfl
@[simp] theorem State.complete_seq (s : State) (h : OpaqueName) (err : Option OpaqueName) (res : OpaqueName) : (s.complete h err res).seq = s.seq := rfl
@[simp] theorem State.complete_cfg (s : State) (h : OpaqueName) (err : Option OpaqueName) (res : OpaqueName) : (s.complete h err res).cfg = s.cfg := rfl
@[simp] theorem State.complete_input (s : State) (h : OpaqueName) (err : Option OpaqueName) (res : OpaqueName) : (s.complete h err res).input = s.input := rfl
@[simp] theorem State.complete_out (s : State) (h : OpaqueName) (err : Option OpaqueName) (res : OpaqueName) : (s.complete h err res).out = s.out ++ [.complete h err res] := rfl

@[simp] theorem State.fill_eq (s : State) : s.fill = s.buf.length := rfl
@[simp] theorem State.lengthUnknown_eq (s : State) : s.lengthUnknown = (s.req == 0) := rfl
@[simp] theorem State.frameComplete_eq (s : State) : s.frameComplete = decide (s.req ≤ s.buf.length) := rfl
@[simp] theorem State.allocate_fst (s : State) : s.allocate.1 = s.seq := rfl
@[simp] theorem State.allocate_snd (s : State) : s.allocate.2 = s.setSeq (seqNext s.seq) := rfl
@[simp] theorem State.memRead_zero (s : State) (n : Nat) : s.memRead 0 n = s.buf.take n := rfl

@[simp] theorem State.memAppendAll_nil (s : State) : s.memAppendAll [] = s := rfl
@[simp] theorem State.memAppendAll_cons (s : State) (b : Byte) (bs : List Byte) :
    s.memAppendAll (b :: bs) = (s.memAppend b).memAppendAll bs := rfl

end Sys2Proof.Machine
end

