-- ==== Sys2Proof/Laws/Ops.lean ====
section
/-! SUPPORT. For each shared operation, once, everything it does. -/

namespace Sys2Proof.Machine

/-- Appending a chunk changes the buffer alone. -/
theorem State.memAppendAll_spec (bs : List Byte) (s : State) :
    s.memAppendAll bs = { s with buf := s.buf ++ bs } := by
  induction bs generalizing s with
  | nil => simp
  | cons b bs ih => rw [State.memAppendAll_cons, ih]; simp

/-- `DISPATCH` appends its outputs and does nothing else; they depend on the frame and on `CFG` alone. -/
theorem dispatchFrame_spec (f : List Byte) (s : State) :
    dispatchFrame f s = { s with out := s.out ++ dispatchOutputs s.cfg f } := by
  unfold dispatchOutputs dispatchFrame
  cases selectFrame f <;> rfl

/-- `if REQ = 0 then REQ <- BUF[0] + 1` changes `REQ` alone. -/
theorem State.latchLength_spec (s : State) :
    s.latchLength = { s with req := if s.req = 0 then frameLength s.buf else s.req } := by
  unfold State.latchLength
  by_cases h : s.req = 0
  · simp [h, State.setReq]
  · simp [h]

/-- A delivered frame is the first `REQ` bytes: they leave the buffer, `REQ` is 0 again, and the outputs of the frame
are appended. -/
theorem State.deliverFrame_spec (s : State) :
    s.deliverFrame = { s with
      buf := s.buf.drop s.req, req := 0, out := s.out ++ frameOutputs s.cfg (s.buf.take s.req) } := by
  unfold State.deliverFrame
  simp [dispatchFrame_spec, State.handOver, State.put, State.memRemove, State.setReq, frameOutputs]

/-- A command allocates, sends the built bytes with its token and returns the number; nothing else changes. -/
theorem command_spec (k : CmdKind) (light : Option (Bytes3 × Byte)) (h : OpaqueName) (s : State) :
    command k light h s = { s with
      seq := seqNext s.seq
      out := s.out ++ [.send (build k (s.cfg.tpl k) s.seq light) h, .ret (.seq s.seq)] } := by
  simp [command, State.allocate, State.send, State.giveBack, State.put, State.setSeq]

/-- A light command with a malformed identifier only returns `ParseError`. -/
theorem lightCommand_refused {id : Text} (hp : parseId id = none) (k : CmdKind) (unit : Byte) (h : OpaqueName)
    (s : State) : lightCommand k id unit h s = s.giveBack .parseError := by
  simp [lightCommand, hp]

/-- A light command with a well-formed identifier is a command with the parsed bytes. -/
theorem lightCommand_accepted {id : Text} {b : Bytes3} (hp : parseId id = some b) (k : CmdKind) (unit : Byte)
    (h : OpaqueName) (s : State) : lightCommand k id unit h s = command k (some (b, unit)) h s := by
  simp [lightCommand, hp]

/-- With a well-formed template the bytes are those R91 assembles. -/
theorem build_wellFormed {k : CmdKind} {t : Template} (ht : t.WellFormed k) (n : Nat)
    (light : Option (Bytes3 × Byte)) : build k t n light = assemble t n light := if_pos ht

/-- A command is as long as its template, well-formed or not. -/
theorem build_length (k : CmdKind) (t : Template) (n : Nat) (light : Option (Bytes3 × Byte)) :
    (build k t n light).length = t.bytes.length := by
  unfold build assemble
  split
  · dsimp only
    split <;> simp
  · simp

end Sys2Proof.Machine
end

