-- ==== Sys2Proof/Laws/Reassembler.lean ====
section
/-! SUPPORT. What the two receive operations do, in terms of the fields of the state. -/

namespace Sys2Proof.Machine

/-- `REQ` after the length has been latched, if it had to be. -/
def reqAfter (buf : List Byte) (req : Nat) : Nat := if req = 0 then frameLength buf else req

/-- Latching the length leaves the rest of the state. -/
theorem State.latchLength_eq (s : State) : s.latchLength = { s with req := reqAfter s.buf s.req } :=
  s.latchLength_spec

/-- `RXB b`: the byte is appended and the length latched; a complete frame leaves the buffer and is put out. -/
theorem execRxb_eq (b : Byte) (s : State) : execRxb b s = .next (
    if reqAfter (s.buf ++ [b]) s.req ≤ (s.buf ++ [b]).length then
      { s with
        buf := (s.buf ++ [b]).drop (reqAfter (s.buf ++ [b]) s.req), req := 0
        out := s.out ++ frameOutputs s.cfg ((s.buf ++ [b]).take (reqAfter (s.buf ++ [b]) s.req)) }
    else { s with buf := s.buf ++ [b], req := reqAfter (s.buf ++ [b]) s.req }) := by
  simp only [execRxb, State.latchLength_eq, State.deliverFrame_spec, State.frameComplete_eq, State.memAppend,
    decide_eq_true_eq]

/-- One turn of the loop of `RXC`. -/
theorem drain_succ (k : Nat) (s : State) : drain (k + 1) s =
    if s.buf = [] then s
    else if reqAfter s.buf s.req ≤ s.buf.length then
      drain k { s with
        buf := s.buf.drop (reqAfter s.buf s.req), req := 0
        out := s.out ++ frameOutputs s.cfg (s.buf.take (reqAfter s.buf s.req)) }
    else { s with req := reqAfter s.buf s.req } := by
  rw [drain]
  simp only [State.latchLength_eq, State.deliverFrame_spec, State.frameComplete_eq, State.fill_eq,
    List.length_eq_zero_iff, decide_eq_true_eq]

/-- The loop does nothing to an empty buffer. -/
theorem drain_nil (k : Nat) (s : State) (h : s.buf = []) : drain k s = s := by
  cases k with
  | zero => rfl
  | succ k => rw [drain_succ, if_pos h]

/-- `RXC c` for a chunk that is not empty: append it all, then loop. -/
theorem execRxc_cons (b : Byte) (bs : List Byte) (s : State) : execRxc (b :: bs) s =
    .next (drain (s.buf ++ b :: bs).length { s with buf := s.buf ++ b :: bs }) := by
  simp only [execRxc, State.memAppendAll_spec, State.fill_eq]

/-- The loop reads and writes the buffer, `REQ` and the configuration only, and appends to the outputs: put into any
surroundings it does the same. -/
theorem drain_frame (k : Nat) (buf : List Byte) (req : Nat) (cfg : Cfg) : ∃ buf' req' os,
    ∀ (seq : Nat) (input : List Instr) (out : List Output),
      drain k ⟨buf, req, seq, cfg, input, out⟩ = ⟨buf', req', seq, cfg, input, out ++ os⟩ := by
  induction k generalizing buf req with
  | zero => exact ⟨buf, req, [], fun _ _ _ => by simp [drain]⟩
  | succ k ih =>
    by_cases h : buf = []
    · exact ⟨buf, req, [], fun _ _ _ => by simp [drain_succ, h]⟩
    · by_cases h' : reqAfter buf req ≤ buf.length
      · obtain ⟨buf', req', os, hd⟩ := ih (buf.drop (reqAfter buf req)) 0
        refine ⟨buf', req', frameOutputs cfg (buf.take (reqAfter buf req)) ++ os, fun seq input out => ?_⟩
        rw [drain_succ, if_neg h, if_pos h', hd]
        simp
      · exact ⟨buf, reqAfter buf req, [], fun _ _ _ => by rw [drain_succ, if_neg h, if_neg h']; simp⟩

end Sys2Proof.Machine
end

