-- ==== Sys2Proof/Laws/Exec.lean ====
section
/-! SUPPORT. What every operation has in common. -/

namespace Sys2Proof.Machine

/-- Every operation goes on; it reads neither what waits nor what was put out before; it leaves the configuration and
the waiting events; and it only appends to the outputs. -/
theorem exec_frame (i : Instr) (buf : List Byte) (req seq : Nat) (cfg : Cfg) : ∃ buf' req' seq' os,
    ∀ (input : List Instr) (out : List Output),
      exec i ⟨buf, req, seq, cfg, input, out⟩ = .next ⟨buf', req', seq', cfg, input, out ++ os⟩ := by
  cases i
  case rst => exact ⟨[], 0, 0, [], fun _ _ => by simp [exec, execRst, State.memRemove, State.setReq, State.setSeq]⟩
  case rxb b =>
    by_cases h : reqAfter (buf ++ [b]) req ≤ (buf ++ [b]).length
    · exact ⟨_, _, _, _, fun _ _ => by simp only [exec, execRxb_eq, if_pos h]; rfl⟩
    · exact ⟨_, _, _, [], fun _ _ => by simp only [exec, execRxb_eq, if_neg h, List.append_nil]; rfl⟩
  case rxc c =>
    cases c with
    | nil => exact ⟨_, _, _, [], fun _ _ => by simp only [exec, execRxc, List.append_nil]; rfl⟩
    | cons b bs =>
      obtain ⟨buf', req', os, hd⟩ := drain_frame (buf ++ b :: bs).length (buf ++ b :: bs) req cfg
      exact ⟨buf', req', seq, os, fun input out => by simp only [exec, execRxc_cons, hd]⟩
  case dispatch f => exact ⟨_, _, _, _, fun _ _ => by simp only [exec, execDispatch, dispatchFrame_spec]; rfl⟩
  case cmdLon id unit h =>
    cases hp : parseId id with
    | none => exact ⟨_, _, _, _, fun _ _ => by simp only [exec, execCmdLon, lightCommand_refused hp, State.giveBack, State.put]; rfl⟩
    | some b => exact ⟨_, _, _, _, fun _ _ => by simp only [exec, execCmdLon, lightCommand_accepted hp, command_spec]; rfl⟩
  case cmdLoff id unit h =>
    cases hp : parseId id with
    | none => exact ⟨_, _, _, _, fun _ _ => by simp only [exec, execCmdLoff, lightCommand_refused hp, State.giveBack, State.put]; rfl⟩
    | some b => exact ⟨_, _, _, _, fun _ _ => by simp only [exec, execCmdLoff, lightCommand_accepted hp, command_spec]; rfl⟩
  case alloc => exact ⟨_, _, _, _, fun _ _ => by
    simp only [exec, execAlloc, State.allocate, State.setSeq, State.giveBack, State.put]; rfl⟩
  case cmdReset h => exact ⟨_, _, _, _, fun _ _ => by simp only [exec, execCmdReset, command_spec]; rfl⟩
  case cmdStatus h => exact ⟨_, _, _, _, fun _ _ => by simp only [exec, execCmdStatus, command_spec]; rfl⟩
  case cmdTamper h => exact ⟨_, _, _, _, fun _ _ => by simp only [exec, execCmdTamper, command_spec]; rfl⟩
  all_goals exact ⟨_, _, _, _, fun _ _ => by
    simp only [exec, execOpenLink, execRxerr, execRxend, execDecStatus, execDecResponse, execDecLighting5,
      execDecSecurity1, execDecElec2, execUnhandled, execTxdone, execParseId, execDecodeUint32, execDecodeUint48,
      execToHex, execIdString, State.emit, State.raise, State.giveBack, State.complete, State.put]
    rfl⟩

end Sys2Proof.Machine
end

