-- ==== Sys2Proof/Laws/Memory.lean ====
section
/-! SUPPORT. The canonical form of the buffer's cells, and that every memory operation keeps it. -/

namespace Sys2Proof.Machine

/-- The cells of a byte sequence are in canonical form from their first address on. -/
theorem cellsFrom_wf (bs : List Byte) (a : Nat) : Memory.wfFrom a (cellsFrom a bs) = true := by
  induction bs generalizing a with
  | nil => rfl
  | cons b bs ih => simp [cellsFrom, Memory.wfFrom, ih]

/-- The cells of every state are in canonical form, the reset state's among them. -/
theorem State.cells_wf (s : State) : Memory.wf s.cells = true := cellsFrom_wf _ _

/-- An append keeps the canonical form. -/
theorem State.memAppend_wf (s : State) (b : Byte) : Memory.wf (s.memAppend b).cells = true := State.cells_wf _

/-- The appends of a chunk keep the canonical form. -/
theorem State.memAppendAll_wf (s : State) (bs : List Byte) : Memory.wf (s.memAppendAll bs).cells = true :=
  State.cells_wf _

/-- The removal of a prefix keeps the canonical form. -/
theorem State.memRemove_wf (s : State) (n : Nat) : Memory.wf (s.memRemove n).cells = true := State.cells_wf _

/-- The reset state's memory has the canonical form. -/
theorem State.reset_wf : Memory.wf State.reset.cells = true := State.cells_wf _

/-- `MemRead(a, n)` where it is used, at `a + n <= FILL`, gives `n` bytes (R12). -/
theorem State.memRead_length (s : State) (a n : Nat) (h : a + n ≤ s.fill) : (s.memRead a n).length = n := by
  simp [State.memRead] at *
  omega

/-- An append leaves every byte that was there. -/
theorem State.byteAt_memAppend (s : State) (b : Byte) (a : Nat) (h : a < s.fill) :
    (s.memAppend b).byteAt a = s.byteAt a := by
  exact List.getElem?_append_left h

/-- The appended byte is read back at the index that was `FILL`. -/
theorem State.byteAt_memAppend_fill (s : State) (b : Byte) : (s.memAppend b).byteAt s.fill = some b := by
  simp [State.byteAt]

/-- After the removal of a prefix the byte at `a` is the one that was at `n + a`. -/
theorem State.byteAt_memRemove (s : State) (n a : Nat) : (s.memRemove n).byteAt a = s.byteAt (n + a) := by
  simp [State.byteAt]

end Sys2Proof.Machine
end

