-- ==== Sys2Proof/Laws/PerInstr.lean ====
section
/-! SUPPORT. A law of each operation as syntax: its line begins with a mnemonic that the decoder reads back as the
operation's own. -/

namespace Sys2Proof.Laws.Named

/-- The mnemonic of `i` names `i`'s operation and no other (30_encoding.md R57). -/
def Statement (i : Instr) : Prop := (lineOf i).pre.head? = some i.op.name ∧ Op.ofName i.op.name = some i.op

theorem rst : Statement .rst := ⟨rfl, Op.ofName_name _⟩
theorem openLink : Statement .openLink := ⟨rfl, Op.ofName_name _⟩
theorem rxb (b : Byte) : Statement (.rxb b) := ⟨rfl, Op.ofName_name _⟩
theorem rxc (c : List Byte) : Statement (.rxc c) := ⟨rfl, Op.ofName_name _⟩
theorem rxerr (e : OpaqueName) : Statement (.rxerr e) := ⟨rfl, Op.ofName_name _⟩
theorem rxend : Statement .rxend := ⟨rfl, Op.ofName_name _⟩
theorem dispatch (f : List Byte) : Statement (.dispatch f) := ⟨rfl, Op.ofName_name _⟩
theorem decStatus (p : StatusPayload) : Statement (.decStatus p) := ⟨rfl, Op.ofName_name _⟩
theorem decResponse (p : ResponsePayload) : Statement (.decResponse p) := ⟨rfl, Op.ofName_name _⟩
theorem decLighting5 (p : Lighting5Payload) : Statement (.decLighting5 p) := ⟨rfl, Op.ofName_name _⟩
theorem decSecurity1 (p : Security1Payload) : Statement (.decSecurity1 p) := ⟨rfl, Op.ofName_name _⟩
theorem decElec2 (p : Elec2Payload) : Statement (.decElec2 p) := ⟨rfl, Op.ofName_name _⟩
theorem unhandled (t : Option Byte) : Statement (.unhandled t) := ⟨rfl, Op.ofName_name _⟩
theorem cmdReset (h : OpaqueName) : Statement (.cmdReset h) := ⟨rfl, Op.ofName_name _⟩
theorem cmdStatus (h : OpaqueName) : Statement (.cmdStatus h) := ⟨rfl, Op.ofName_name _⟩
theorem cmdTamper (h : OpaqueName) : Statement (.cmdTamper h) := ⟨rfl, Op.ofName_name _⟩
theorem cmdLon (id : Text) (unit : Byte) (h : OpaqueName) : Statement (.cmdLon id unit h) := ⟨rfl, Op.ofName_name _⟩
theorem cmdLoff (id : Text) (unit : Byte) (h : OpaqueName) : Statement (.cmdLoff id unit h) := ⟨rfl, Op.ofName_name _⟩
theorem txdone (h : OpaqueName) (err : Option OpaqueName) (res : OpaqueName) : Statement (.txdone h err res) := ⟨rfl, Op.ofName_name _⟩
theorem alloc : Statement .alloc := ⟨rfl, Op.ofName_name _⟩
theorem parseId (t : Text) : Statement (.parseId t) := ⟨rfl, Op.ofName_name _⟩
theorem decodeUint32 (b : Bytes4) : Statement (.decodeUint32 b) := ⟨rfl, Op.ofName_name _⟩
theorem decodeUint48 (b : Bytes6) : Statement (.decodeUint48 b) := ⟨rfl, Op.ofName_name _⟩
theorem toHex (bytes : List Byte) (pre : Option Text) : Statement (.toHex bytes pre) := ⟨rfl, Op.ofName_name _⟩
theorem idString (bytes : List Byte) : Statement (.idString bytes) := ⟨rfl, Op.ofName_name _⟩

end Sys2Proof.Laws.Named
end

