-- ==== Sys2Proof/Laws/Step.lean ====
section
/-! SUPPORT. What the delivery of events does to the state. -/

namespace Sys2Proof.Machine

@[simp] theorem State.deliver_buf (s : State) (i : Instr) : (s.deliver i).buf = s.buf := rfl
@[simp] theorem State.deliver_req (s : State) (i : Instr) : (s.deliver i).req = s.req := rfl
@[simp] theorem State.deliver_seq (s : State) (i : Instr) : (s.deliver i).seq = s.seq := rfl
@[simp] theorem State.deliver_cfg (s : State) (i : Instr) : (s.deliver i).cfg = s.cfg := rfl
@[simp] theorem State.deliver_input (s : State) (i : Instr) : (s.deliver i).input = s.input ++ [i] := rfl
@[simp] theorem State.deliver_out (s : State) (i : Instr) : (s.deliver i).out = s.out := rfl

/-- Events delivered one after another all join the queue, in order, and nothing else changes. -/
theorem State.foldl_deliver (is : List Instr) (s : State) :
    is.foldl State.deliver s = { s with input := s.input ++ is } := by
  induction is generalizing s with
  | nil => simp
  | cons i is ih => simp [ih, State.deliver]

/-- A line delivers an operation exactly when it decodes to it. -/
theorem State.deliverLine_eq_ok (s t : State) (line : Text) :
    s.deliverLine line = .ok t ↔ ∃ i, decode line = .ok i ∧ t = s.deliver i := by
  unfold State.deliverLine
  cases decode line <;> simp [eq_comm]

end Sys2Proof.Machine
end

