-- ==== Sys2Proof/Tests/Slice0.lean ====
section
/-! SUPPORT. The writer's own tests. Expected results are the vectors V<n> and programs P<n> of
spec/95_test_vectors.md, or are worked by hand from the rule named. `test_` checks a result; `witness_` gives a concrete
state and operands that meet all hypotheses of the obligation it names. -/

namespace Sys2Proof.Tests

open Sys2Proof.Machine

/-! ## A small configuration and small states -/

/-- A template for RESET_TAMPER, for which 93_implementation_defined.md G12 has no default. -/
def tamperTpl : Template := ⟨[3, 0, 0, 0], 2, none, none, none, none⟩

/-- The instantiation G3 to G11. -/
def cfg : Cfg := Config.generalKnowledge tamperTpl

/-- A state with this buffer, `REQ` and `SEQ`. -/
def st (buf : List Byte) (req seq : Nat) : State := ⟨buf, req, seq, cfg, [], []⟩

/-- What a step left in `BUF`, `REQ` and `SEQ`, and what it put out. -/
def result (i : Instr) (s : State) : Option (List Byte × Nat × Nat × List Output) :=
  match exec i s with
  | .next t => some (t.buf, t.req, t.seq, t.out)
  | _ => none

/-- The configuration is well-formed, as R131 asks. -/
theorem test_cfg_wellFormed : cfg.WellFormed := by decide

/-! ## WellFormed refuses -/

/-- R41: the length byte does not count what follows. -/
theorem test_wf_dispatch : (Instr.dispatch [0x03, 0x02]).WellFormed = false := by decide
/-- R41: no frame is empty. -/
theorem test_wf_dispatch_empty : (Instr.dispatch []).WellFormed = false := by decide
/-- R42: payloads of 255 bytes do not fit in a frame. -/
theorem test_wf_payloads :
    (Instr.decStatus ⟨0, 0, 0, 0, 0, List.replicate 250 0⟩).WellFormed = false ∧
    (Instr.decResponse ⟨0, 0, 0, List.replicate 252 0⟩).WellFormed = false ∧
    (Instr.decLighting5 ⟨0, 0, ⟨0, 0, 0⟩, 0, 0, List.replicate 248 0⟩).WellFormed = false ∧
    (Instr.decSecurity1 ⟨0, 0, ⟨0, 0, 0⟩, 0, 0, List.replicate 248 0⟩).WellFormed = false ∧
    (Instr.decElec2 ⟨0, 0, ⟨0, 0⟩, 0, ⟨0, 0, 0, 0⟩, ⟨0, 0, 0, 0, 0, 0⟩, List.replicate 240 0⟩).WellFormed = false := by
  simp only [Instr.WellFormed, Instr.operandsOk, List.length_replicate]; decide
/-- R74: a known tag is not unhandled. -/
theorem test_wf_unhandled : (Instr.unhandled (some 0x5A)).WellFormed = false := by decide
/-- A name is one word: not empty, no space, no double quote, not the mark of an absent value. -/
theorem test_wf_names :
    (Instr.rxerr []).WellFormed = false ∧ (Instr.cmdReset "a b".toList).WellFormed = false ∧
    (Instr.cmdStatus ['"']).WellFormed = false ∧ (Instr.cmdTamper ['-']).WellFormed = false ∧
    (Instr.txdone ['h'] (some ['-']) ['r']).WellFormed = false ∧ (Instr.txdone ['h'] none []).WellFormed = false := by
  decide
/-- R11: texts are ASCII. -/
theorem test_wf_texts :
    (Instr.cmdLon ['é'] 1 ['h']).WellFormed = false ∧ (Instr.cmdLoff ['é'] 1 ['h']).WellFormed = false ∧
    (Instr.parseId ['é']).WellFormed = false ∧ (Instr.toHex [] (some ['é'])).WellFormed = false := by
  decide
/-- R106: an identifier has two or three bytes. -/
theorem test_wf_idString : (Instr.idString [1]).WellFormed = false ∧ (Instr.idString [1, 2, 3, 4]).WellFormed = false := by
  decide

/-! ## Trace lines, written out from 30_encoding.md R58, one for every constructor -/

theorem test_decode_rst : decode "RST".toList = .ok .rst := by decide
theorem test_decode_open : decode "OPEN".toList = .ok .openLink := by decide
theorem test_decode_rxb : decode "RXB 0xA5".toList = .ok (.rxb 0xA5) := by decide
theorem test_decode_rxc : decode "RXC 0x04 0x02".toList = .ok (.rxc [0x04, 0x02]) := by decide
theorem test_decode_rxc_empty : decode "RXC".toList = .ok (.rxc []) := by decide
theorem test_decode_rxerr : decode "RXERR e".toList = .ok (.rxerr ['e']) := by decide
theorem test_decode_rxend : decode "RXEND".toList = .ok .rxend := by decide
theorem test_decode_dispatch : decode "DISPATCH 0x02 0xFF 0x00".toList = .ok (.dispatch [0x02, 0xFF, 0x00]) := by decide
theorem test_decode_decStatus : decode "DEC.STATUS 0x00 0x01 0x02 0x53 0x30 0x07".toList =
    .ok (.decStatus ⟨0x00, 0x01, 0x02, 0x53, 0x30, [0x07]⟩) := by decide
theorem test_decode_decResponse : decode "DEC.RESPONSE 0x01 0x07 0x00".toList =
    .ok (.decResponse ⟨0x01, 0x07, 0x00, []⟩) := by decide
theorem test_decode_decLighting5 : decode "DEC.LIGHTING5 0x00 0x05 0x0A 0x0B 0x0C 0x01 0x02".toList =
    .ok (.decLighting5 ⟨0x00, 0x05, ⟨0x0A, 0x0B, 0x0C⟩, 0x01, 0x02, []⟩) := by decide
theorem test_decode_decSecurity1 : decode "DEC.SECURITY1 0x01 0x09 0xA1 0xB2 0xC3 0x04 0x89".toList =
    .ok (.decSecurity1 ⟨0x01, 0x09, ⟨0xA1, 0xB2, 0xC3⟩, 0x04, 0x89, []⟩) := by decide
theorem test_decode_decElec2 :
    decode "DEC.ELEC2 0x01 0x03 0x12 0x34 0x07 0x00 0x00 0x01 0x2C 0x00 0x00 0x00 0x03 0x69 0xB2 0x79".toList =
    .ok (.decElec2 ⟨0x01, 0x03, ⟨0x12, 0x34⟩, 0x07, ⟨0x00, 0x00, 0x01, 0x2C⟩, ⟨0x00, 0x00, 0x00, 0x03, 0x69, 0xB2⟩,
      [0x79]⟩) := by decide
theorem test_decode_unhandled : decode "UNHANDLED 0xFF".toList = .ok (.unhandled (some 0xFF)) := by decide
theorem test_decode_unhandled_none : decode "UNHANDLED none".toList = .ok (.unhandled none) := by decide
theorem test_decode_cmdReset : decode "CMD.RESET h1".toList = .ok (.cmdReset ['h', '1']) := by decide
theorem test_decode_cmdStatus : decode "CMD.STATUS h1".toList = .ok (.cmdStatus ['h', '1']) := by decide
theorem test_decode_cmdTamper : decode "CMD.TAMPER h1".toList = .ok (.cmdTamper ['h', '1']) := by decide
theorem test_decode_cmdLon : decode "CMD.LON \"0x0A0B0C\" 1 h".toList =
    .ok (.cmdLon "0x0A0B0C".toList 0x01 ['h']) := by decide
theorem test_decode_cmdLoff : decode "CMD.LOFF \"0A0B0C\" 0xFF h".toList =
    .ok (.cmdLoff "0A0B0C".toList 0xFF ['h']) := by decide
theorem test_decode_txdone : decode "TXDONE h9 - r".toList = .ok (.txdone ['h', '9'] none ['r']) := by decide
theorem test_decode_txdone_err : decode "TXDONE h3 E r3".toList =
    .ok (.txdone ['h', '3'] (some ['E']) ['r', '3']) := by decide
theorem test_decode_alloc : decode "ALLOC".toList = .ok .alloc := by decide
theorem test_decode_parseId : decode "PARSEID \"0x0A 0B0C\"".toList = .ok (.parseId "0x0A 0B0C".toList) := by decide
theorem test_decode_uint32 : decode "decode_uint32 0x00 0x00 0x01 0x2C".toList =
    .ok (.decodeUint32 ⟨0x00, 0x00, 0x01, 0x2C⟩) := by decide
theorem test_decode_uint48 : decode "decode_uint48 0x01 0x02 0x03 0x04 0x05 0x06".toList =
    .ok (.decodeUint48 ⟨0x01, 0x02, 0x03, 0x04, 0x05, 0x06⟩) := by decide
theorem test_decode_toHex : decode "to_hex 0x0A 0xFF \"0x\"".toList = .ok (.toHex [0x0A, 0xFF] (some "0x".toList)) := by
  decide
theorem test_decode_toHex_noPrefix : decode "to_hex 0x0A".toList = .ok (.toHex [0x0A] none) := by decide
theorem test_decode_idString : decode "id_string 0x12 0x34".toList = .ok (.idString [0x12, 0x34]) := by decide

/-- Refused by name: no mnemonic of R57; operands of another shape; an operand outside what the operation takes. -/
theorem test_decode_refuses :
    decode "RESET".toList = .error .unknownMnemonic ∧ decode [] = .error .unknownMnemonic ∧
    decode "RXB".toList = .error .badOperands ∧ decode "RXB 0x1".toList = .error .badOperands ∧
    decode "RXB 0x00 0x01".toList = .error .badOperands ∧ decode "CMD.LON \"0A0B0C\" 256 h".toList = .error .badOperands ∧
    decode "decode_uint32 0x00 0x00 0x01".toList = .error .badOperands ∧
    decode "DEC.RESPONSE 0x01 0x07".toList = .error .badOperands ∧
    decode "PARSEID \"0A0B0C".toList = .error .badOperands ∧
    decode "DISPATCH 0x02 0xFF".toList = .error .illFormed := by decide

/-- R126: an operation whose token no line can carry, here the empty one, is run like any other. -/
theorem test_any_token : step { st [] 0 0 with input := [.txdone [] (some ['-']) [' ']] } =
    .next { st [] 0 0 with out := [.complete [] (some ['-']) [' ']] } := rfl

/-! ## Frames, written out from R41 to R47 (the frames of V30 to V40) -/

theorem test_frame_status :
    decodeFrame [0x0D, 0x01, 0x00, 0x01, 0x02, 0x53, 0x30, 0x00, 0x00, 0x00, 0x00, 0x00, 0x00, 0x00] =
      some (.decStatus ⟨0x00, 0x01, 0x02, 0x53, 0x30, List.replicate 7 0x00⟩) := by decide
theorem test_frame_response : decodeFrame [0x04, 0x02, 0x01, 0x07, 0x00] = some (.decResponse ⟨0x01, 0x07, 0x00, []⟩) := by
  decide
theorem test_frame_lighting5 :
    decodeFrame [0x0A, 0x14, 0x00, 0x05, 0x0A, 0x0B, 0x0C, 0x01, 0x01, 0x00, 0x70] =
      some (.decLighting5 ⟨0x00, 0x05, ⟨0x0A, 0x0B, 0x0C⟩, 0x01, 0x01, [0x00, 0x70]⟩) := by decide
theorem test_frame_security1 :
    decodeFrame [0x08, 0x20, 0x01, 0x09, 0xA1, 0xB2, 0xC3, 0x04, 0x89] =
      some (.decSecurity1 ⟨0x01, 0x09, ⟨0xA1, 0xB2, 0xC3⟩, 0x04, 0x89, []⟩) := by decide
theorem test_frame_elec2 :
    decodeFrame [0x11, 0x5A, 0x01, 0x03, 0x12, 0x34, 0x07, 0x00, 0x00, 0x01, 0x2C, 0x00, 0x00, 0x00, 0x03, 0x69, 0xB2,
        0x79] =
      some (.decElec2 ⟨0x01, 0x03, ⟨0x12, 0x34⟩, 0x07, ⟨0x00, 0x00, 0x01, 0x2C⟩, ⟨0x00, 0x00, 0x00, 0x03, 0x69, 0xB2⟩,
        [0x79]⟩) := by decide
theorem test_frame_unhandled :
    decodeFrame [0x02, 0xFF, 0x00] = some (.unhandled (some 0xFF)) ∧ decodeFrame [0x00] = some (.unhandled none) := by
  decide
/-- R41, R76: no frame; a known tag with a short payload. -/
theorem test_frame_refuses :
    decodeFrame [] = none ∧ decodeFrame [0x02, 0xFF] = none ∧ decodeFrame [0x01, 0x14] = none := by decide

/-- The five rows of spec/opcode_table.json that have bits, as the table numbers them, run as the first operation. -/
theorem test_table_words :
    (decodeTableWord 8 0x01).map Instr.op = some .decStatus ∧ (decodeTableWord 8 0x02).map Instr.op = some .decResponse ∧
    (decodeTableWord 8 0x14).map Instr.op = some .decLighting5 ∧
    (decodeTableWord 8 0x20).map Instr.op = some .decSecurity1 ∧
    (decodeTableWord 8 0x5A).map Instr.op = some .decElec2 ∧ decodeTableWord 0 0 = none := by decide
theorem test_withFetchWord : (match step ((st [] 0 0).withFetchWord 8 0x02) with
    | .next t => some (t.input, t.out)
    | _ => none) = some ([], [.event (.response 0x00 0x00 0x00 (some .transmitOK))]) := by decide

/-! ## The receive operations -/

/-- V21, step 1. -/
theorem test_rxb_first : result (.rxb 0x04) (st [] 0 9) = some ([0x04], 5, 9, []) := by decide
/-- V21, step 5; V35. -/
theorem test_rxb_last : result (.rxb 0x00) (st [0x04, 0x02, 0x01, 0x07] 5 9) = some ([], 0, 9,
    [.frame [0x04, 0x02, 0x01, 0x07, 0x00], .event (.response 0x01 0x07 0x00 (some .transmitOK))]) := by decide
/-- V26: two frames in one chunk, and the length of the third. -/
theorem test_rxc_two_frames : result (.rxc [0x01, 0xAA, 0x02, 0xBB, 0xCC, 0x05]) (st [] 0 9) = some ([0x05], 6, 9,
    [.frame [0x01, 0xAA], .diag (.unhandled (some 0xAA)), .frame [0x02, 0xBB, 0xCC], .diag (.unhandled (some 0xBB))]) := by
  decide
/-- P1, the third chunk. -/
theorem test_rxc_P1 : result (.rxc [0x0C, 0x01, 0x01, 0x00, 0x70, 0x02, 0xFF]) (st [0x0A, 0x14, 0x00, 0x05, 0x0A, 0x0B] 11 0) =
    some ([0x02, 0xFF], 3, 0,
      [.frame [0x0A, 0x14, 0x00, 0x05, 0x0A, 0x0B, 0x0C, 0x01, 0x01, 0x00, 0x70],
       .event (.lighting5 0x00 (some .lightwaveRFSiemens) 0x05 "0x0A0B0C".toList 0x01 0x01 (some .on))]) := by decide
/-- V122 and V123: the partial frame stays. -/
theorem test_rxerr : result (.rxerr ['e']) (st [0x04, 0x02] 5 9) =
    some ([0x04, 0x02], 5, 9, [.diag (.streamError ['e'])]) := by decide
theorem test_rxend : result .rxend (st [0x04, 0x02] 5 9) = some ([0x04, 0x02], 5, 9, [.diag .streamEnd]) := by decide
/-- V125. -/
theorem test_rst : result .rst (st [0x04, 0x02] 5 9) = some ([], 0, 0, []) := by decide
/-- V120. -/
theorem test_open : result .openLink (st [0x04, 0x02] 5 9) = some ([0x04, 0x02], 5, 9, [.event .ready]) := by decide

/-! ## Dispatch and the decoders -/

/-- V34, and V31. -/
theorem test_dispatch_short : result (.dispatch [0x03, 0x14, 0x00, 0x05]) (st [] 0 0) =
    some ([], 0, 0, [.diag (.shortPayload 0x14 2 7)]) := by decide
theorem test_dispatch_runt : result (.dispatch [0x00]) (st [0x07] 8 3) = some ([0x07], 8, 3, [.diag (.unhandled none)]) := by
  decide
/-- V30, the diagnostic. -/
theorem test_unhandled : result (.unhandled (some 0xFF)) (st [] 0 0) = some ([], 0, 0, [.diag (.unhandled (some 0xFF))]) := by
  decide
/-- V39. -/
theorem test_decStatus : result (.decStatus ⟨0x00, 0x01, 0x02, 0x53, 0x30, List.replicate 7 0x00⟩) (st [] 0 0) =
    some ([], 0, 0, [.event (.status 0x00 0x01 0x02 0x53 (some "433.92MHz transceiver".toList) 0x30)]) := by decide
/-- V47: a code that no table holds. -/
theorem test_decResponse : result (.decResponse ⟨0x09, 0x07, 0x7F, []⟩) (st [] 0 0) =
    some ([], 0, 0, [.event (.response 0x09 0x07 0x7F none)]) := by decide
/-- V48. -/
theorem test_decLighting5 : result (.decLighting5 ⟨0xEE, 0xFF, ⟨0x00, 0x00, 0x00⟩, 0xFF, 0xEE, []⟩) (st [] 0 0) =
    some ([], 0, 0, [.event (.lighting5 0xEE none 0xFF "0x000000".toList 0xFF 0xEE none)]) := by decide
/-- V38. -/
theorem test_decSecurity1 : result (.decSecurity1 ⟨0x01, 0x09, ⟨0xA1, 0xB2, 0xC3⟩, 0x04, 0x89, []⟩) (st [] 0 0) =
    some ([], 0, 0, [.event (.security1 0x01 (some .motionSensor) 0x09 "0xA1B2C3".toList 0x04 0x89)]) := by decide

/-- The ELEC2 payload of V40. -/
def meter : Elec2Payload :=
  ⟨0x01, 0x03, ⟨0x12, 0x34⟩, 0x07, ⟨0x00, 0x00, 0x01, 0x2C⟩, ⟨0x00, 0x00, 0x00, 0x03, 0x69, 0xB2⟩, [0x79]⟩

/-- V40, and V41 with the corrected decoder. -/
theorem test_decElec2 : result (.decElec2 meter) (st [] 0 0) =
    some ([], 0, 0, [.event (.elec2 0x01 0x03 "0x1234".toList 0x07 300 223593 99967)]) := by decide
theorem test_decElec2_corrected : result (.decElec2 meter) { st [] 0 0 with cfg := { cfg with u48Corrected := true } } =
    some ([], 0, 0, [.event (.elec2 0x01 0x03 "0x1234".toList 0x07 300 223666 100000)]) := by decide

/-! ## Commands -/

/-- V126 and V100: the partial frame stays. -/
theorem test_cmdReset : result (.cmdReset ['h']) (st [0x04, 0x02] 5 0) = some ([0x04, 0x02], 5, 1,
    [.send [0x0D, 0, 0, 0, 0, 0, 0, 0, 0, 0, 0, 0, 0, 0] ['h'], .ret (.seq 0)]) := by decide
/-- V105 and V106: the wrap. -/
theorem test_cmdStatus_255 : result (.cmdStatus ['h']) (st [] 0 255) = some ([], 0, 256,
    [.send [0x0D, 0, 0, 0xFF, 2, 0, 0, 0, 0, 0, 0, 0, 0, 0] ['h'], .ret (.seq 255)]) := by decide
theorem test_cmdStatus_256 : result (.cmdStatus ['h']) (st [] 0 256) = some ([], 0, 0,
    [.send [0x0D, 0, 0, 0x00, 2, 0, 0, 0, 0, 0, 0, 0, 0, 0] ['h'], .ret (.seq 256)]) := by decide
/-- V92, with the template of this file. -/
theorem test_cmdTamper : result (.cmdTamper ['h']) (st [] 0 7) = some ([], 0, 8,
    [.send [3, 0, 7, 0] ['h'], .ret (.seq 7)]) := by decide
/-- V108 and V95. -/
theorem test_cmdLon : result (.cmdLon "0xa1b2c3".toList 0xFF ['h']) (st [] 0 256) = some ([], 0, 0,
    [.send [0x0A, 0x14, 0x00, 0x00, 0xA1, 0xB2, 0xC3, 0xFF, 0x01, 0x00, 0x00] ['h'], .ret (.seq 256)]) := by decide
theorem test_cmdLon_refused : result (.cmdLon "0x0A0B".toList 1 ['h']) (st [] 0 9) =
    some ([], 0, 9, [.ret .parseError]) := by decide
/-- V103 and V104. -/
theorem test_cmdLoff : result (.cmdLoff "0A0B0C".toList 2 ['h']) (st [] 0 3) = some ([], 0, 4,
    [.send [0x0A, 0x14, 0x00, 0x03, 0x0A, 0x0B, 0x0C, 0x02, 0x00, 0x00, 0x00] ['h'], .ret (.seq 3)]) := by decide
theorem test_cmdLoff_refused : result (.cmdLoff "0x0A0B".toList 2 ['h']) (st [] 0 4) =
    some ([], 0, 4, [.ret .parseError]) := by decide
/-- P2: a settled write, and a failed one. -/
theorem test_txdone : result (.txdone ['h', '2'] none ['r', '2']) (st [] 0 1) =
    some ([], 0, 1, [.complete ['h', '2'] none ['r', '2']]) := by decide
theorem test_txdone_err : result (.txdone ['h', '3'] (some ['E']) ['r', '3']) (st [] 0 1) =
    some ([], 0, 1, [.complete ['h', '3'] (some ['E']) ['r', '3']]) := by decide
/-- V62 and V63. -/
theorem test_alloc_255 : result .alloc (st [] 0 255) = some ([], 0, 256, [.ret (.seq 255)]) := by decide
theorem test_alloc_256 : result .alloc (st [] 0 256) = some ([], 0, 0, [.ret (.seq 256)]) := by decide
/-- V72. -/
theorem test_parseId : result (.parseId "0x0a0b0c".toList) (st [] 0 0) =
    some ([], 0, 0, [.ret (.idBytes ⟨0x0A, 0x0B, 0x0C⟩)]) := by decide
/-- V73 to V83. -/
theorem test_parseId_all :
    parseId "FFFFFF".toList = some ⟨0xFF, 0xFF, 0xFF⟩ ∧ parseId "0x000000".toList = some ⟨0, 0, 0⟩ ∧
    parseId [] = none ∧ parseId "0x".toList = none ∧ parseId "0x0A0B".toList = none ∧
    parseId "0x0A0B0C0D".toList = none ∧ parseId "0X0A0B0C".toList = none ∧ parseId "0x0A0B0G".toList = none ∧
    parseId "0x0A 0B0C".toList = none ∧ parseId "0A0x0B0C".toList = none ∧ parseId "0xx0A0B0".toList = none := by decide

/-! ## The integer codec and the texts -/

/-- V5 and V4. -/
theorem test_uint32 : result (.decodeUint32 ⟨0x12, 0x34, 0x56, 0x78⟩) (st [] 0 0) =
    some ([], 0, 0, [.ret (.number 305419896)]) := by decide
theorem test_uint32_top : uint32 ⟨0x80, 0x00, 0x00, 0x00⟩ = 2147483648 := by decide
/-- V11. -/
theorem test_uint48 : result (.decodeUint48 ⟨0x01, 0x02, 0x03, 0x04, 0x05, 0x06⟩) (st [] 0 0) =
    some ([], 0, 0, [.ret (.number 1108152157445)]) := by decide
/-- V9 to V14, legacy and corrected. -/
theorem test_uint48_all :
    uint48Legacy ⟨0, 0, 0, 0, 0, 0xFF⟩ = 0 ∧ uint48Corrected ⟨0, 0, 0, 0, 0, 0xFF⟩ = 255 ∧
    uint48Legacy ⟨0, 0, 0, 0, 0xFF, 0⟩ = 65535 ∧ uint48Corrected ⟨0, 0, 0, 0, 0xFF, 0⟩ = 65280 ∧
    uint48Legacy ⟨0xFF, 0xFF, 0xFF, 0xFF, 0xFF, 0xFF⟩ = 281474976710655 ∧
    uint48Corrected ⟨0x01, 0x02, 0x03, 0x04, 0x05, 0x06⟩ = 1108152157446 := by decide
/-- V51 to V54. -/
theorem test_scaleCenti : scaleCenti 1 = 0 ∧ scaleCenti 2 = 1 ∧ scaleCenti 111 = 50 ∧ scaleCenti 1000 = 447 := by decide
/-- V115. -/
theorem test_toHex : result (.toHex [0x0A, 0xFF] (some "0x".toList)) (st [] 0 0) =
    some ([], 0, 0, [.ret (.texts ["0x0A".toList, "0xFF".toList])]) := by decide
/-- V117 and V119. -/
theorem test_idString : result (.idString [0x12, 0x34]) (st [] 0 0) = some ([], 0, 0, [.ret (.text "0x1234".toList)]) := by
  decide
theorem test_idString_three : idString [0xAB, 0xCD, 0xEF] = "0xABCDEF".toList := by decide

/-! ## Witnesses: what meets the hypotheses of each obligation that has some -/

theorem witness_TraceLineRoundTrip : (Instr.cmdLon "0x0A0B0C".toList 0xFF ['h']).WellFormed = true := by decide
/-- At both ends of the payload's range, and for the frame without a tag. -/
theorem witness_PacketFrameRoundTrip :
    (Instr.decResponse ⟨1, 7, 0, []⟩).WellFormed = true ∧
    encodeFrame (.decResponse ⟨1, 7, 0, []⟩) = some [0x04, 0x02, 0x01, 0x07, 0x00] ∧
    (Instr.decResponse ⟨1, 7, 0, List.replicate 251 0⟩).WellFormed = true ∧
    (encodeFrame (.decResponse ⟨1, 7, 0, List.replicate 251 0⟩)).isSome = true ∧
    (Instr.unhandled none).WellFormed = true ∧ encodeFrame (.unhandled none) = some [0x00] :=
  ⟨rfl, rfl, by simp only [Instr.WellFormed, Instr.operandsOk, List.length_replicate]; decide, rfl, rfl, rfl⟩
theorem witness_DecodedFrameKeepsEveryByte :
    decodeFrame [0x04, 0x02, 0x01, 0x07, 0x00] = some (.decResponse ⟨1, 7, 0, []⟩) ∧
    ∀ t, Instr.decResponse ⟨1, 7, 0, []⟩ ≠ .unhandled t := ⟨by decide, fun _ => by simp⟩
theorem witness_DecodedLineIsWellFormed : decode "RXB 0xA5".toList = .ok (.rxb 0xA5) := by decide
/-- A hypothesis of each clause. -/
theorem witness_StepRunsTheOldestEvent :
    ({ st [] 0 0 with input := [.openLink, .rxend] } : State).input = .openLink :: [.rxend] ∧ (st [] 0 0).input = [] ∧
    decode "OPEN".toList = .ok .openLink ∧ decodeTableWord 8 0x02 = some (.decResponse ⟨0, 0, 0, []⟩) ∧
    decode [] = .error .unknownMnemonic := by decide

/-- A state with one event waiting that meets the invariant. -/
def waiting : State := { st [0x04] 5 256 with input := [.rxc [0x02, 0x01, 0x07, 0x00, 0x03]] }

theorem witness_EngineInvariantIsKept : Inv waiting ∧ step waiting = .next { st [0x03] 4 256 with
    out := [.frame [0x04, 0x02, 0x01, 0x07, 0x00], .event (.response 0x01 0x07 0x00 (some .transmitOK))] } :=
  ⟨⟨by decide, by decide, by decide, by decide, by simp [waiting, st]⟩, rfl⟩
theorem witness_StepOnlyAppendsOutputs : ∃ t, step waiting = .next t := ⟨_, witness_EngineInvariantIsKept.2⟩
theorem witness_DeliverableRunNeverStops : Deliverable waiting := by
  intro i h
  obtain rfl : i = .rxc [0x02, 0x01, 0x07, 0x00, 0x03] := by simpa [waiting] using h
  rfl
theorem witness_DeliveredOperationsRunInOrder : (st [] 0 0).input = [] := by decide
/-- One operation for each clause. -/
theorem witness_HalvesOfTheStateAreDisjoint :
    exec .alloc (st [0x04] 5 3) = .next { st [0x04] 5 4 with out := [.ret (.seq 3)] } ∧ receives .alloc = false ∧
    exec (.rxb 0x02) (st [0x04] 5 3) = .next (st [0x04, 0x02] 5 3) ∧ allocates (.rxb 0x02) = false :=
  ⟨rfl, rfl, rfl, rfl⟩
theorem witness_EachHalfIgnoresTheOther :
    receives (.rxb 0x02) = true ∧ (st [0x04] 5 3).buf = (st [0x04] 5 200).buf ∧
    exec (.rxb 0x02) (st [0x04] 5 3) = .next (st [0x04, 0x02] 5 3) ∧
    exec (.rxb 0x02) (st [0x04] 5 200) = .next (st [0x04, 0x02] 5 200) ∧
    allocates .alloc = true ∧ (st [0x04] 5 3).seq = (st [] 0 3).seq ∧
    exec .alloc (st [0x04] 5 3) = .next { st [0x04] 5 4 with out := [.ret (.seq 3)] } ∧
    exec .alloc (st [] 0 3) = .next { st [] 0 4 with out := [.ret (.seq 3)] } :=
  ⟨rfl, rfl, rfl, rfl, rfl, rfl, rfl, rfl⟩
theorem witness_StreamErrorLeavesTheState :
    exec (.rxb 0x02) (st [0x04] 5 3) = .next (st [0x04, 0x02] 5 3) ∧
    execAll [.rxerr ['e'], .rxb 0x02] (st [0x04] 5 3) =
      .next { st [0x04, 0x02] 5 3 with out := [.diag (.streamError ['e'])] } := ⟨rfl, rfl⟩
theorem witness_StreamEndLeavesThePartialFrame :
    exec (.rxb 0x02) (st [0x04] 5 3) = .next (st [0x04, 0x02] 5 3) ∧
    execAll [.rxend, .rxb 0x02] (st [0x04] 5 3) = .next { st [0x04, 0x02] 5 3 with out := [.diag .streamEnd] } :=
  ⟨rfl, rfl⟩
/-- The last byte but one of a frame, its last byte, and a frame of one byte. -/
theorem witness_ByteIsAppendedOrCompletesItsFrame :
    RxInv (st [0x02] 3 0) ∧ [(0x02 : Byte), 0xFF].length < (0x02 : Byte).toNat + 1 ∧
    RxInv (st [0x02, 0xFF] 3 0) ∧ (0x02 : Byte).toNat + 1 ≤ [(0x02 : Byte), 0xFF, 0x00].length ∧
    RxInv (st [] 0 0) ∧ (0x00 : Byte).toNat + 1 ≤ [(0x00 : Byte)].length := by decide
theorem witness_SplitFollowsItsEquations :
    [(0xFF : Byte)].length < (0x02 : Byte).toNat ∧ (0x02 : Byte).toNat ≤ [(0xFF : Byte), 0x00].length := by decide
theorem witness_ChunkIsSplitAndDispatched : RxInv (st [0x02, 0xFF] 3 0) := by decide
theorem witness_ChunkEqualsItsBytes : RxInv (st [0xFF] 256 0) := by decide
theorem witness_ChunkBoundariesAreUnobservable : RxInv (st [] 0 0) := by decide
/-- Also in a state no run reaches: `REQ` beyond what the buffer's first byte says. -/
theorem witness_ReceivedBytesAreAccountedFor :
    exec (.rxb 0x02) (st [0x00, 0x07] 9 0) = .next (st [0x00, 0x07, 0x02] 9 0) := rfl
theorem witness_StreamOfFramesIsRecovered :
    (∀ f ∈ [[(0x00 : Byte)], [0x04, 0x02, 0x01, 0x07, 0x00]], frameOk f = true) ∧
    (st [] 0 0).buf = [] ∧ (st [] 0 0).req = 0 := by decide
theorem witness_ZeroBytesAreRuntFrames : (st [] 0 0).buf = [] ∧ (st [] 0 0).req = 0 := by decide
theorem witness_DecodersArePure :
    (Instr.decElec2 meter).WellFormed = true ∧ (encodeFrame (.decElec2 meter)).isSome = true := by decide
theorem witness_UnknownTagIsUnhandled : (0x00 : Byte) ∉ [(0x01 : Byte), 0x02, 0x14, 0x20, 0x5A] := by decide
/-- Each format one byte short of its need. -/
theorem witness_ShortPayloadIsReported :
    ∀ tn ∈ [((0x01 : Byte), 5), (0x02, 3), (0x14, 7), (0x20, 7), (0x5A, 15)],
      (List.replicate (tn.2 - 1) (0 : Byte)).length < tn.2 := by decide
/-- Each of the five formats with exactly the bytes it needs. -/
theorem witness_FramesAreDecoded :
    5 ≤ [(0 : Byte), 1, 2, 0x53, 0x30].length ∧ 3 ≤ [(1 : Byte), 7, 0].length ∧
    7 ≤ [(0 : Byte), 5, 0x0A, 0x0B, 0x0C, 1, 1].length ∧ 7 ≤ [(1 : Byte), 9, 0xA1, 0xB2, 0xC3, 4, 0x89].length ∧
    15 ≤ (List.replicate 15 (0 : Byte)).length := by decide
theorem witness_UnknownCodesNeverSuppressAnEvent :
    (∀ tn ∈ [((0x01 : Byte), 5), (0x02, 3), (0x14, 7), (0x20, 7), (0x5A, 15)],
      tn.2 ≤ (List.replicate tn.2 (0xEE : Byte)).length) ∧
    lookup cfg.ackDesc 0x7F = none ∧ lookup cfg.ackDesc 0x03 = some .nakAddressNotAllowed ∧
    Config.minimal.u48Corrected = cfg.u48Corrected := by decide
theorem witness_TrailingBytesAreIgnored :
    ∀ tn ∈ [((0x01 : Byte), 5), (0x02, 3), (0x14, 7), (0x20, 7), (0x5A, 15)],
      tn.2 ≤ (List.replicate tn.2 (0 : Byte)).length ∧ tn.2 ≤ (List.replicate tn.2 (0 : Byte) ++ [0x70]).length ∧
      (List.replicate tn.2 (0 : Byte)).take tn.2 = (List.replicate tn.2 (0 : Byte) ++ [0x70]).take tn.2 := by decide
theorem witness_AllocationsCountModulo257 : (st [] 0 256).seq ≤ 256 := by decide
theorem witness_PlainCommandsSendTheirTemplate :
    (Instr.cmdTamper ['h'], Cfg.tplResetTamper) ∈ [(Instr.cmdReset ['h'], Cfg.tplReset),
      (.cmdStatus ['h'], Cfg.tplGetStatus), (.cmdTamper ['h'], Cfg.tplResetTamper)] ∧ (st [] 0 0).cfg.WellFormed :=
  ⟨by simp, test_cfg_wellFormed⟩
theorem witness_LightCommandsSendTheirOperands :
    (Instr.cmdLon "0A0B0C".toList 1 ['h'], Cfg.tplLightOn) ∈ [(Instr.cmdLon "0A0B0C".toList 1 ['h'], Cfg.tplLightOn),
      (.cmdLoff "0A0B0C".toList 1 ['h'], Cfg.tplLightOff)] ∧
    parseId "0A0B0C".toList = some ⟨0x0A, 0x0B, 0x0C⟩ ∧ (st [] 0 0).cfg.WellFormed :=
  ⟨by simp, by decide, test_cfg_wellFormed⟩
/-- A text one digit short of the grammar. -/
theorem witness_MalformedIdentifierIsRefused : ¬ ∃ b, IsIdText "0A0B0".toList b := by
  rintro ⟨b, pre, c0, c1, c2, c3, c4, c5, hp, ht, -⟩
  have := congrArg List.length ht
  rcases hp with rfl | rfl <;> simp at this
theorem witness_SentCommandIsOneFrame :
    (st [] 0 256).cfg.WellFormed ∧ (st [] 0 256).buf = [] ∧ (st [] 0 256).req = 0 :=
  ⟨test_cfg_wellFormed, rfl, rfl⟩
theorem witness_LightOnLoopsBack :
    (st [] 0 1).cfg = Config.generalKnowledge tamperTpl ∧ (st [] 0 1).buf = [] ∧ (st [] 0 1).req = 0 := ⟨rfl, rfl, rfl⟩
/-- A plain and a light command, at the wrap and before it. -/
theorem witness_WireByteAliasesOnlyAtTheWrap :
    (st [] 0 256).cfg.WellFormed ∧ (st [] 0 256).seq ≤ 256 ∧ (st [] 0 255).seq ≤ 256 ∧
    CmdKind.getStatus.isLight = false ∧ CmdKind.lightOn.isLight = true ∧
    ∃ b, parseId "0x0A0B0C".toList = some b :=
  ⟨test_cfg_wellFormed, by decide, by decide, rfl, rfl, ⟨0x0A, 0x0B, 0x0C⟩, by decide⟩
/-- The texts of V70 with and without the `0x`. -/
theorem witness_ParseIdAnswers : IsIdText "0x0a0B0C".toList ⟨0x0A, 0x0B, 0x0C⟩ :=
  ⟨['0', 'x'], '0', 'a', '0', 'B', '0', 'C', by simp, rfl,
    ⟨0, 10, ⟨by decide, by decide⟩, ⟨by decide, by decide⟩, by decide⟩,
    ⟨0, 11, ⟨by decide, by decide⟩, ⟨by decide, by decide⟩, by decide⟩,
    ⟨0, 12, ⟨by decide, by decide⟩, ⟨by decide, by decide⟩, by decide⟩⟩
theorem witness_IdentifierRoundTrip :
    parseId "0x0a0b0c".toList = some ⟨0x0A, 0x0B, 0x0C⟩ ∧ parseId "0a0b0c".toList = some ⟨0x0A, 0x0B, 0x0C⟩ := by decide
theorem witness_HexTextsAnswer : [(0x12 : Byte), 0x34][1]? = some 0x34 := by decide
theorem witness_CodecLaws :
    uint32 ⟨1, 2, 3, 4⟩ = uint32 ⟨1, 2, 3, 4⟩ ∧ uint48Legacy ⟨1, 2, 3, 4, 5, 6⟩ = uint48Legacy ⟨1, 2, 3, 4, 5, 0xFF⟩ := by
  decide
theorem witness_ScaledTotalIsTheNearestHundredth : 0 ≤ 2 ^ 48 - 1 := by decide
theorem witness_BufferCellsAreItsBytes : (st [0x04] 5 0).fill ≤ 1 ∧ (0, 0x04) ∈ (st [0x04] 5 0).cells := by decide

end Sys2Proof.Tests
end

section
/-! # 10_state.md section 3: the buffer as memory (R23, R30) -/

namespace Sys2Proof.Machine

/-! ## The cells of the buffer -/

/-- The cells of a byte sequence are the library's numbering of its bytes, the address written first. -/
theorem cellsFrom_eq_map_zipIdx (bs : List Byte) (a : Nat) : cellsFrom a bs = (bs.zipIdx a).map Prod.swap := by
  induction bs generalizing a with
  | nil => rfl
  | cons b bs ih => simp [cellsFrom, ih]

/-- A cell is held exactly when `BUF` has its byte at its address (R23). -/
theorem State.mem_cells_iff (s : State) (a : Nat) (b : Byte) : (a, b) ∈ s.cells ↔ s.byteAt a = some b := by
  calc (a, b) ∈ s.cells
      ↔ (b, a) ∈ s.buf.zipIdx := by simp [State.cells, cellsFrom_eq_map_zipIdx]
    _ ↔ s.byteAt a = some b := List.mk_mem_zipIdx_iff_getElem?

/-! ## Reading a byte -/

/-- There is no byte exactly at the indices from `FILL` on (R23). -/
theorem State.byteAt_eq_none_iff (s : State) (a : Nat) : s.byteAt a = none ↔ s.fill ≤ a :=
  List.getElem?_eq_none_iff

/-- An append makes `FILL` one more (R30). -/
theorem State.memAppend_fill (s : State) (b : Byte) : (s.memAppend b).fill = s.fill + 1 := by simp

/-- What every index reads after an append: the new byte at `FILL`, and elsewhere what it read before, be it a byte
below `FILL` or nothing above it (R30). -/
theorem State.byteAt_memAppend_eq_ite (s : State) (b : Byte) (a : Nat) :
    (s.memAppend b).byteAt a = if a = s.fill then some b else s.byteAt a := by
  obtain hlt | rfl | hgt := lt_trichotomy a s.fill
  · rw [if_neg hlt.ne, State.byteAt_memAppend s b a hlt]
  · rw [if_pos rfl, State.byteAt_memAppend_fill]
  · have hbefore : s.byteAt a = none := (s.byteAt_eq_none_iff a).mpr hgt.le
    have hafter : (s.memAppend b).byteAt a = none :=
      ((s.memAppend b).byteAt_eq_none_iff a).mpr (by rw [State.memAppend_fill]; exact hgt)
    rw [if_neg hgt.ne', hbefore, hafter]

/-- Settles O60: the reading rules of the cells, of the indices from `FILL` on, and of the append. -/
theorem bufferCellsAreItsBytes : Obligations.BufferCellsAreItsBytes :=
  ⟨State.mem_cells_iff, fun s a => (s.byteAt_eq_none_iff a).mpr, State.byteAt_memAppend_eq_ite⟩

end Sys2Proof.Machine
end

section
/-! # 20_memory.md section 6: operations run in order of delivery (R35) -/

namespace Sys2Proof.Machine

/-! ## One step and one operation -/

/-- With an event waiting, a step is its operation, run with the others left in the queue (R113). -/
theorem step_input_cons (i : Instr) (w : List Instr) (s : State) :
    step { s with input := i :: w } = exec i { s with input := w } := rfl

/-- Every operation goes on, and does the same whatever waits behind it, which it leaves waiting (R112, R126). -/
theorem exec_anyInput (i : Instr) (s : State) :
    ∃ t : State, ∀ w, exec i { s with input := w } = .next { t with input := w } := by
  obtain ⟨buf', req', seq', os, hexec⟩ := exec_frame i s.buf s.req s.seq s.cfg
  exact ⟨⟨buf', req', seq', s.cfg, [], s.out ++ os⟩, fun w => hexec w s.out⟩

/-! ## Several steps and several operations -/

/-- A run whose first step goes on is the rest of the run from there. -/
theorem core_run_succ (M : Host.Core) {s t : M.State} (hstep : M.step s = .next t) (n : Nat) :
    M.run (n + 1) s = M.run n t := by
  rw [Host.Core.run, hstep]

/-- Where the first operation goes on, the others run in the state it left (R35). -/
theorem execAll_cons {i : Instr} {s t : State} (hexec : exec i s = .next t) (is : List Instr) :
    execAll (i :: is) s = execAll is t := by
  rw [execAll, hexec]

/-- The operations at the head of the queue, taken by as many steps, run in order as if they had never waited, and
what waits behind them keeps waiting. -/
theorem core_run_queued (is w : List Instr) (s : State) :
    Sys2Proof.core.run is.length ({ s with input := is ++ w } : State) = execAll is { s with input := w } := by
  induction is generalizing s with
  | nil => rfl
  | cons i is ih =>
    obtain ⟨t, hexec⟩ := exec_anyInput i s
    have hstep : Sys2Proof.core.step ({ s with input := i :: (is ++ w) } : State) =
        .next ({ t with input := is ++ w } : State) :=
      (step_input_cons i (is ++ w) s).trans (hexec (is ++ w))
    rw [List.length_cons, List.cons_append, core_run_succ Sys2Proof.core hstep, ih t, execAll_cons (hexec w)]

/-- Settles O12: the delivered operations are the whole queue, and the run of a queue is `execAll`. -/
theorem deliveredOperationsRunInOrder : Obligations.DeliveredOperationsRunInOrder := by
  intro is s hidle
  have hqueue : is.foldl State.deliver s = { s with input := is ++ [] } := by
    rw [State.foldl_deliver, hidle, List.nil_append, List.append_nil]
  have hs : { s with input := [] } = s := by rw [← hidle]
  rw [hqueue, core_run_queued, hs]

end Sys2Proof.Machine
end

section
/-! # 30_encoding.md sections 2, 4 and 7: lines and frames written out (R41 to R47, R52, R58) -/

namespace Sys2Proof

/-! ## A line, in the decoder's three stages -/

/-- A line decodes to an operation when it is cut up into a mnemonic and its operands, the operands are that
mnemonic's, and the operation they name is well-formed (R57, R58). -/
theorem decode_eq_ok_of_scanLine {t : Text} {o : Op} {ws : List Text} {q : Option Text} {post : List Text} {i : Instr}
    (hscan : scanLine t = some ⟨o.name :: ws, q, post⟩) (hoperands : operandsOf o ws q post = some i)
    (hwf : i.WellFormed = true) : decode t = .ok i := by
  simp only [decode, hscan, Op.ofName_name, hoperands, hwf, if_true]

/-! ## A frame, by its tag -/

/-- A frame with tag `0x02` is the RESPONSE of its payload (R44, R52). -/
theorem decodeFrame_response {len : Byte} {payload : List Byte} {p : ResponsePayload}
    (hok : frameOk (len :: 0x02 :: payload) = true) (hparse : parseResponse payload = some p) :
    decodeFrame (len :: 0x02 :: payload) = some (.decResponse p) := by
  have hselect : selectFrame (len :: 0x02 :: payload) = .response p := by simp [selectFrame, hparse, selectOr]
  simp only [decodeFrame, hok, hselect, if_true]

/-- A frame with tag `0x20` is the SECURITY1 of its payload (R47, R52). -/
theorem decodeFrame_security1 {len : Byte} {payload : List Byte} {p : Security1Payload}
    (hok : frameOk (len :: 0x20 :: payload) = true) (hparse : parseSecurity1 payload = some p) :
    decodeFrame (len :: 0x20 :: payload) = some (.decSecurity1 p) := by
  have hselect : selectFrame (len :: 0x20 :: payload) = .security1 p := by simp [selectFrame, hparse, selectOr]
  simp only [decodeFrame, hok, hselect, if_true]

/-- A frame of one byte has no tag to select a decoder (R75, decision D7). -/
theorem decodeFrame_runt {len : Byte} (hok : frameOk [len] = true) : decodeFrame [len] = some (.unhandled none) := by
  have hselect : selectFrame [len] = .unhandled none := rfl
  simp only [decodeFrame, hok, hselect, if_true]

/-! ## The lines and frames of the statement -/

theorem decode_rst_line : decode "RST".toList = .ok .rst :=
  decode_eq_ok_of_scanLine (o := .rst) (ws := []) (q := none) (post := []) (by decide) rfl rfl

theorem decode_rxc_line :
    decode "RXC 0x04 0x02 0x01 0x07 0x00".toList = .ok (.rxc [0x04, 0x02, 0x01, 0x07, 0x00]) :=
  have hscan : scanLine "RXC 0x04 0x02 0x01 0x07 0x00".toList =
      some ⟨Op.rxc.name :: [0x04, 0x02, 0x01, 0x07, 0x00].map wordOfByte, none, []⟩ := by decide
  decode_eq_ok_of_scanLine hscan (by simp only [operandsOf, bytesOfWords_map, Option.map_some]) rfl

/-- The identifier is kept without its double quotes; the decimal unit code is read as a byte (R58). -/
theorem decode_cmdLon_line :
    decode "CMD.LON \"0x0A0B0C\" 1 h".toList = .ok (.cmdLon "0x0A0B0C".toList 1 ['h']) :=
  have hscan : scanLine "CMD.LON \"0x0A0B0C\" 1 h".toList =
      some ⟨[Op.cmdLon.name], some "0x0A0B0C".toList, [['1'], ['h']]⟩ := by decide
  decode_eq_ok_of_scanLine hscan (by decide) (by decide)

/-- The word `-` is no error value but its absence (V97, P2; assumption 7). -/
theorem decode_txdone_line : decode "TXDONE h2 - r2".toList = .ok (.txdone ['h', '2'] none ['r', '2']) :=
  have hscan : scanLine "TXDONE h2 - r2".toList =
      some ⟨Op.txdone.name :: [['h', '2'], ['-'], ['r', '2']], none, []⟩ := by decide
  decode_eq_ok_of_scanLine hscan (by decide) (by decide)

/-- Settles O4: each line through the decoder's stages, each frame through the rule of its tag. -/
theorem spelledOutEncodingsDecode : Obligations.SpelledOutEncodingsDecode :=
  ⟨decode_rst_line, decode_rxc_line, decode_cmdLon_line, decode_txdone_line,
    decodeFrame_response (by decide) rfl, decodeFrame_security1 (by decide) rfl, decodeFrame_runt (by decide)⟩

end Sys2Proof
end

section
/-! # 40_integer_codec.md: the integer codec (R60, R61, R63, R64)

Each decoder is the value of its bytes joined, most significant first, into one word; the laws of R64 are then those of
a byte appended to a word. -/

namespace Sys2Proof.Machine

/-! ## A byte appended below a word -/

theorem toNat_append_byte {w : Nat} (x : BitVec w) (v : Byte) : (x ++ v).toNat = x.toNat * 256 + v.toNat := by
  rw [BitVec.toNat_append, ← Nat.shiftLeft_add_eq_or_of_lt v.isLt, Nat.shiftLeft_eq]

theorem toNat_append_byte_mod {w : Nat} (x : BitVec w) (v : Byte) : (x ++ v).toNat % 256 = v.toNat := by
  rw [toNat_append_byte, Nat.mul_add_mod', Nat.mod_eq_of_lt v.isLt]

theorem toNat_append_byte_div {w : Nat} (x : BitVec w) (v : Byte) : (x ++ v).toNat / 256 = x.toNat := by
  have hlow : v.toNat < 256 := v.isLt
  rw [toNat_append_byte]
  omega

/-- The appended byte and the word above it can both be told from the result. -/
theorem append_byte_inj {w : Nat} {x y : BitVec w} {u v : Byte} : x ++ u = y ++ v ↔ x = y ∧ u = v := by
  constructor
  · intro h
    have hword : x.toNat = y.toNat := by rw [← toNat_append_byte_div x u, h, toNat_append_byte_div]
    have hbyte : u.toNat = v.toNat := by rw [← toNat_append_byte_mod x u, h, toNat_append_byte_mod]
    exact ⟨BitVec.eq_of_toNat_eq hword, BitVec.eq_of_toNat_eq hbyte⟩
  · rintro ⟨rfl, rfl⟩
    rfl

/-! ## The decoders read their bytes joined into one word -/

/-- The shifts of R60 are the multiplications of the big-endian value. -/
theorem uint32_eq_toNat_append (b : Bytes4) : uint32 b = (b.b0 ++ b.b1 ++ b.b2 ++ b.b3).toNat := by
  simp only [uint32, toNat_append_byte, Nat.shiftLeft_eq]
  omega

/-- The defect of R61: where the last byte belongs, the fifth is read again. -/
theorem uint48Legacy_eq_toNat_append (b : Bytes6) :
    uint48Legacy b = (b.b0 ++ b.b1 ++ b.b2 ++ b.b3 ++ b.b4 ++ b.b4).toNat := by
  simp only [uint48Legacy, toNat_append_byte, Nat.shiftLeft_eq]
  omega

theorem uint48Corrected_eq_toNat_append (b : Bytes6) :
    uint48Corrected b = (b.b0 ++ b.b1 ++ b.b2 ++ b.b3 ++ b.b4 ++ b.b5).toNat := by
  simp only [uint48Corrected, toNat_append_byte, Nat.shiftLeft_eq]
  omega

/-- The switch of `CFG` chooses the byte of weight 1 and nothing else (R61, R63, decision D13). -/
theorem uint48_eq_toNat_append (c : Cfg) (b : Bytes6) : uint48 c b =
    (b.b0 ++ b.b1 ++ b.b2 ++ b.b3 ++ b.b4 ++ (if c.u48Corrected then b.b5 else b.b4)).toNat := by
  cases hswitch : c.u48Corrected with
  | false => simp [uint48, hswitch, uint48Legacy_eq_toNat_append]
  | true => simp [uint48, hswitch, uint48Corrected_eq_toNat_append]

/-! ## Ranges -/

theorem uint32_lt (b : Bytes4) : uint32 b < 2 ^ 32 := by
  rw [uint32_eq_toNat_append]
  exact (b.b0 ++ b.b1 ++ b.b2 ++ b.b3).isLt

theorem uint48Legacy_lt (b : Bytes6) : uint48Legacy b < 2 ^ 48 := by
  rw [uint48Legacy_eq_toNat_append]
  exact (b.b0 ++ b.b1 ++ b.b2 ++ b.b3 ++ b.b4 ++ b.b4).isLt

/-! ## Low bytes -/

theorem uint32_mod (b : Bytes4) : uint32 b % 256 = b.b3.toNat := by
  rw [uint32_eq_toNat_append, toNat_append_byte_mod]

theorem uint48Legacy_mod (b : Bytes6) : uint48Legacy b % 256 = b.b4.toNat := by
  rw [uint48Legacy_eq_toNat_append, toNat_append_byte_mod]

/-- The byte of weight 256 is the byte of weight 1 once more. -/
theorem uint48Legacy_div_mod (b : Bytes6) : uint48Legacy b / 256 % 256 = b.b4.toNat := by
  rw [uint48Legacy_eq_toNat_append, toNat_append_byte_div, toNat_append_byte_mod]

/-! ## What a value tells of its bytes -/

theorem uint32_injective {b c : Bytes4} (h : uint32 b = uint32 c) : b = c := by
  rw [uint32_eq_toNat_append, uint32_eq_toNat_append] at h
  have hword := BitVec.eq_of_toNat_eq h
  simp only [append_byte_inj] at hword
  obtain ⟨⟨⟨h0, h1⟩, h2⟩, h3⟩ := hword
  change Bytes4.mk b.b0 b.b1 b.b2 b.b3 = c
  rw [h0, h1, h2, h3]

/-- The legacy decoder never reads its last byte (R61). -/
theorem uint48Legacy_ignores_b5 (b : Bytes6) (v : Byte) : uint48Legacy { b with b5 := v } = uint48Legacy b := rfl

/-- The legacy decoder loses its last byte and no other. -/
theorem uint48Legacy_injective_up_to_b5 {b c : Bytes6} (h : uint48Legacy b = uint48Legacy c) :
    { b with b5 := c.b5 } = c := by
  rw [uint48Legacy_eq_toNat_append, uint48Legacy_eq_toNat_append] at h
  have hword := BitVec.eq_of_toNat_eq h
  simp only [append_byte_inj] at hword
  obtain ⟨⟨⟨⟨⟨h0, h1⟩, h2⟩, h3⟩, h4⟩, -⟩ := hword
  rw [h0, h1, h2, h3, h4]

/-! ## The codec's functions as operations -/

/-- `decode_uint32` gives back its value and changes nothing else (R60; assumption 8). -/
theorem exec_decodeUint32 (b : Bytes4) (s : State) :
    exec (.decodeUint32 b) s = .next { s with out := s.out ++ [.ret (.number (uint32 b))] } := rfl

/-- `decode_uint48` gives back the value that `CFG` selects and changes nothing else (R61, R63; assumption 8). -/
theorem exec_decodeUint48 (b : Bytes6) (s : State) :
    exec (.decodeUint48 b) s = .next { s with out := s.out ++ [.ret (.number (uint48 s.cfg b))] } := rfl

/-! ## The obligations -/

/-- Settles O57: ranges, low bytes and injectivity of the joined words. -/
theorem codecLaws : Obligations.CodecLaws :=
  ⟨fun b => ⟨uint32_lt b, uint32_mod b⟩, fun _ _ => uint32_injective,
    fun b => ⟨uint48Legacy_lt b, uint48Legacy_mod b, uint48Legacy_div_mod b⟩, uint48Legacy_ignores_b5,
    fun _ _ => uint48Legacy_injective_up_to_b5⟩

/-- Settles O55: the formula is the definition's own, its value the joined word's; the four corners are evaluated. -/
theorem uint32IsBigEndian : Obligations.Uint32IsBigEndian :=
  ⟨fun b => ⟨rfl, uint32_eq_toNat_append b, uint32_lt b⟩, by decide, by decide, by decide, by decide⟩

/-- Settles O56: each function gives back its value, which is that of a joined word. -/
theorem codecFunctionsAnswer : Obligations.CodecFunctionsAnswer := by
  constructor
  · intro b s
    rw [exec_decodeUint32, uint32_eq_toNat_append]
  · intro b s
    rw [exec_decodeUint48, uint48_eq_toNat_append]

end Sys2Proof.Machine
end

section
/-! # 41_reassembler.md: the reassembler (R66 to R70)

A byte sequence is, in exactly one way, a concatenation of frames and a remainder that is not yet a frame: `split`
finds them. Both receive operations are then one function of the bytes received, `receive`, for which cutting up those
bytes makes no difference. -/

namespace Sys2Proof.Machine

/-! ## Frames and unfinished frames -/

/-- What may stand in `BUF` between steps: nothing, or a frame of which at least one byte is missing (R26). -/
def IsUnfinished (bs : List Byte) : Prop := bs = [] ∨ bs.length < frameLength bs

theorem isUnfinished_nil : IsUnfinished [] := .inl rfl

theorem isUnfinished_cons {l : Byte} {rest : List Byte} : IsUnfinished (l :: rest) ↔ rest.length < l.toNat := by
  simp [IsUnfinished, frameLength]

theorem frameOk_cons {l : Byte} {rest : List Byte} : frameOk (l :: rest) = true ↔ rest.length = l.toNat := by
  simp [frameOk]

theorem frameOk_runt : frameOk [0x00] = true := rfl

/-- The bytes a complete frame has at the head of a sequence are a frame (R41, decision D3). -/
theorem frameOk_take {l : Byte} {rest : List Byte} (h : l.toNat ≤ rest.length) :
    frameOk ((l :: rest).take (l.toNat + 1)) = true := by
  rw [List.take_succ_cons, frameOk_cons, List.length_take_of_le h]

/-- Items 1 to 3 of R26: `REQ` is the length of the frame begun, which is not complete. -/
theorem rxInv_iff (s : State) : RxInv s ↔ s.req = frameLength s.buf ∧ IsUnfinished s.buf := by
  obtain ⟨buf, req, seq, cfg, input, out⟩ := s
  cases buf with
  | nil => simp [RxInv, frameLength, isUnfinished_nil]
  | cons l rest =>
    simp only [RxInv, frameLength, isUnfinished_cons, List.head?_cons, Option.mem_some_iff, forall_eq',
      List.length_cons, reduceCtorEq, false_iff]
    omega

theorem rxInv_of_empty {s : State} (hbuf : s.buf = []) (hreq : s.req = 0) : RxInv s :=
  (rxInv_iff s).mpr ⟨by rw [hbuf, hreq, frameLength], by rw [hbuf]; exact isUnfinished_nil⟩

/-- Bytes appended to what stands between steps leave the length of the frame begun what it was, or make it known. -/
theorem req_of_append {s : State} (h : RxInv s) (c : List Byte) : s.req = 0 ∨ s.req = frameLength (s.buf ++ c) := by
  obtain ⟨hreq, -⟩ := (rxInv_iff s).mp h
  rw [hreq]
  cases s.buf with
  | nil => exact .inl rfl
  | cons l rest => exact .inr rfl

/-- After the latch `REQ` is the length of the frame begun, whether it was unknown or known before. -/
theorem reqAfter_cons {l : Byte} {rest : List Byte} {req : Nat} (h : req = 0 ∨ req = frameLength (l :: rest)) :
    reqAfter (l :: rest) req = l.toNat + 1 := by
  obtain rfl | rfl := h <;> simp [reqAfter, frameLength]

/-- One byte more at most completes an unfinished frame. -/
theorem length_le_of_append_byte {bs rest : List Byte} {b l : Byte} (h : IsUnfinished bs)
    (hbs : bs ++ [b] = l :: rest) : (l :: rest).length ≤ l.toNat + 1 := by
  cases bs with
  | nil => simp [← hbs]
  | cons l' bs =>
    obtain ⟨rfl, rfl⟩ := List.cons.inj hbs
    simpa using isUnfinished_cons.mp h

/-! ## `split` (R67) -/

/-- A bound of at least the number of bytes is no bound: every frame has at least one byte. -/
theorem splitAtMost_eq_splitAtMost {k k' : Nat} {bs : List Byte} (hk : bs.length ≤ k) (hk' : bs.length ≤ k') :
    splitAtMost k bs = splitAtMost k' bs := by
  induction k generalizing k' bs with
  | zero =>
    obtain rfl : bs = [] := List.length_eq_zero_iff.mp (Nat.le_zero.mp hk)
    cases k' <;> rfl
  | succ k ih =>
    cases bs with
    | nil => cases k' <;> rfl
    | cons l rest =>
      cases k' with
      | zero => simp at hk'
      | succ k' =>
        have hdrop : ((l :: rest).drop (l.toNat + 1)).length ≤ rest.length := by simp
        simp only [List.length_cons, Nat.add_le_add_iff_right] at hk hk'
        simp only [splitAtMost, ih (hdrop.trans hk) (hdrop.trans hk')]

theorem splitAtMost_eq_split {k : Nat} {bs : List Byte} (hk : bs.length ≤ k) : splitAtMost k bs = split bs :=
  splitAtMost_eq_splitAtMost hk le_rfl

theorem split_nil : split [] = ([], []) := rfl

theorem split_of_incomplete {l : Byte} {rest : List Byte} (h : rest.length < l.toNat) :
    split (l :: rest) = ([], l :: rest) := by
  rw [split, List.length_cons, splitAtMost]
  exact if_pos (Nat.succ_lt_succ h)

theorem split_of_complete {l : Byte} {rest : List Byte} (h : l.toNat ≤ rest.length) :
    split (l :: rest) = ((l :: rest).take (l.toNat + 1) :: (split ((l :: rest).drop (l.toNat + 1))).1,
      (split ((l :: rest).drop (l.toNat + 1))).2) := by
  have hdrop : ((l :: rest).drop (l.toNat + 1)).length ≤ rest.length := by simp
  conv_lhs => rw [split, List.length_cons, splitAtMost]
  simp only [splitAtMost_eq_split hdrop]
  exact if_neg (by simpa using h)

/-- Settles O22: an equation for each branch of R67. -/
theorem splitFollowsItsEquations : Obligations.SplitFollowsItsEquations :=
  ⟨split_nil, fun _ _ => ⟨split_of_incomplete, split_of_complete⟩⟩

theorem split_of_isUnfinished {bs : List Byte} (h : IsUnfinished bs) : split bs = ([], bs) := by
  cases bs with
  | nil => exact split_nil
  | cons l rest => exact split_of_incomplete (isUnfinished_cons.mp h)

/-- A frame at the head of a sequence is split off whole. -/
theorem split_frame_append {f : List Byte} (hf : frameOk f = true) (bs : List Byte) :
    split (f ++ bs) = (f :: (split bs).1, (split bs).2) := by
  cases f with
  | nil => simp [frameOk] at hf
  | cons l rest =>
    have hlen : (l :: rest).length = l.toNat + 1 := congrArg (· + 1) (frameOk_cons.mp hf)
    have hle : l.toNat ≤ (rest ++ bs).length := by simp [frameOk_cons.mp hf]
    rw [List.cons_append, split_of_complete hle, ← List.cons_append, List.take_left' hlen, List.drop_left' hlen]

/-- So are any number of frames. -/
theorem split_flatten_append {fs : List (List Byte)} (hfs : ∀ f ∈ fs, frameOk f = true) (bs : List Byte) :
    split (fs.flatten ++ bs) = (fs ++ (split bs).1, (split bs).2) := by
  induction fs with
  | nil => rfl
  | cons f fs ih =>
    obtain ⟨hf, hfs⟩ := List.forall_mem_cons.mp hfs
    rw [List.flatten_cons, List.append_assoc, split_frame_append hf, ih hfs, List.cons_append]

/-- Every byte sequence is a concatenation of frames and an unfinished frame. -/
theorem exists_frames_append_unfinished (bs : List Byte) : ∃ (fs : List (List Byte)) (rest : List Byte),
    (∀ f ∈ fs, frameOk f = true) ∧ IsUnfinished rest ∧ bs = fs.flatten ++ rest := by
  match bs with
  | [] => exact ⟨[], [], by simp, isUnfinished_nil, rfl⟩
  | l :: tail =>
    by_cases h : tail.length < l.toNat
    · exact ⟨[], l :: tail, by simp, isUnfinished_cons.mpr h, rfl⟩
    · obtain ⟨fs, rest, hfs, hrest, hbs⟩ := exists_frames_append_unfinished ((l :: tail).drop (l.toNat + 1))
      refine ⟨(l :: tail).take (l.toNat + 1) :: fs, rest,
        List.forall_mem_cons.mpr ⟨frameOk_take (not_lt.mp h), hfs⟩, hrest, ?_⟩
      rw [List.flatten_cons, List.append_assoc, ← hbs, List.take_append_drop]
termination_by bs.length
decreasing_by simp

theorem split_frames_append_unfinished {fs : List (List Byte)} {rest : List Byte}
    (hfs : ∀ f ∈ fs, frameOk f = true) (hrest : IsUnfinished rest) : split (fs.flatten ++ rest) = (fs, rest) := by
  rw [split_flatten_append hfs, split_of_isUnfinished hrest, List.append_nil]

/-- A sequence can be split in two pieces, what the first piece leaves over going before the second. -/
theorem split_append (as bs : List Byte) : split (as ++ bs) =
    ((split as).1 ++ (split ((split as).2 ++ bs)).1, (split ((split as).2 ++ bs)).2) := by
  obtain ⟨fs, rest, hfs, hrest, rfl⟩ := exists_frames_append_unfinished as
  rw [split_frames_append_unfinished hfs hrest, List.append_assoc, split_flatten_append hfs]

theorem isUnfinished_split (bs : List Byte) : IsUnfinished (split bs).2 := by
  obtain ⟨fs, rest, hfs, hrest, rfl⟩ := exists_frames_append_unfinished bs
  rwa [split_frames_append_unfinished hfs hrest]

/-! ## What receiving bytes comes to -/

/-- The functional statement of R67 as a state: the complete frames of buffer and bytes have been dispatched, the rest
is the buffer, and `REQ` is known exactly when there is a rest. -/
def receive (c : List Byte) (s : State) : State := { s with
  buf := (split (s.buf ++ c)).2
  req := frameLength (split (s.buf ++ c)).2
  out := s.out ++ (split (s.buf ++ c)).1.flatMap (frameOutputs s.cfg) }

theorem receive_of_split {c : List Byte} {s : State} {fs : List (List Byte)} {rest : List Byte}
    (h : split (s.buf ++ c) = (fs, rest)) : receive c s =
      { s with buf := rest, req := frameLength rest, out := s.out ++ fs.flatMap (frameOutputs s.cfg) } := by
  simp only [receive, h]

theorem receive_rxInv (c : List Byte) (s : State) : RxInv (receive c s) :=
  (rxInv_iff _).mpr ⟨rfl, isUnfinished_split _⟩

theorem receive_nil {s : State} (h : RxInv s) : receive [] s = s := by
  obtain ⟨hreq, hbuf⟩ := (rxInv_iff s).mp h
  have hsplit : split (s.buf ++ []) = ([], s.buf) := by rw [List.append_nil, split_of_isUnfinished hbuf]
  rw [receive_of_split hsplit, ← hreq, List.flatMap_nil, List.append_nil]

/-- Receiving in two pieces is receiving in one (R68). -/
theorem receive_append (c d : List Byte) (s : State) : receive (c ++ d) s = receive d (receive c s) := by
  have hsplit := split_append (s.buf ++ c) d
  rw [List.append_assoc] at hsplit
  rw [receive_of_split hsplit]
  simp only [receive, List.flatMap_append, List.append_assoc]

/-- At a frame boundary, frames received are dispatched and leave nothing behind (R69, item 4). -/
theorem receive_frames {fs : List (List Byte)} {s : State} (hfs : ∀ f ∈ fs, frameOk f = true) (hbuf : s.buf = [])
    (hreq : s.req = 0) : receive fs.flatten s = { s with out := s.out ++ fs.flatMap (frameOutputs s.cfg) } := by
  have hsplit : split (s.buf ++ fs.flatten) = (fs, []) := by
    rw [hbuf, List.nil_append, ← List.append_nil fs.flatten, split_frames_append_unfinished hfs isUnfinished_nil]
  rw [receive_of_split hsplit, ← hbuf, hbuf, frameLength, ← hreq]

/-! ## `RXB` (R66) -/

/-- Settles O21: the length latched is that of the frame begun, which the byte before did not complete. -/
theorem byteIsAppendedOrCompletesItsFrame : Obligations.ByteIsAppendedOrCompletesItsFrame := by
  intro b s h
  obtain ⟨-, hunfinished⟩ := (rxInv_iff s).mp h
  have hne : s.buf ++ [b] ≠ [] := List.append_ne_nil_of_right_ne_nil s.buf (List.cons_ne_nil b [])
  obtain ⟨l, rest, hbuf⟩ := List.exists_cons_of_ne_nil hne
  have hreq : reqAfter (l :: rest) s.req = l.toNat + 1 := reqAfter_cons (hbuf ▸ req_of_append h [b])
  refine ⟨l, rest, hbuf, fun hlt => ?_, fun hle => ?_⟩
  · rw [exec, execRxb_eq, hbuf, hreq, if_neg (not_le.mpr hlt)]
  · have hlen : (l :: rest).length = l.toNat + 1 := (length_le_of_append_byte hunfinished hbuf).antisymm hle
    refine ⟨hlen, ?_⟩
    rw [exec, execRxb_eq, hbuf, hreq, if_pos hle, List.drop_of_length_le hlen.le, List.take_of_length_le hlen.le]

/-- A byte received is a chunk of one byte. -/
theorem exec_rxb (b : Byte) {s : State} (h : RxInv s) : exec (.rxb b) s = .next (receive [b] s) := by
  obtain ⟨l, rest, hbuf, hwaits, hcompletes⟩ := byteIsAppendedOrCompletesItsFrame b s h
  by_cases hlt : (l :: rest).length < l.toNat + 1
  · have hsplit : split (s.buf ++ [b]) = ([], l :: rest) := by
      rw [hbuf, split_of_incomplete (Nat.lt_of_succ_lt_succ hlt)]
    rw [hwaits hlt, receive_of_split hsplit, hbuf, frameLength, List.flatMap_nil, List.append_nil]
  · obtain ⟨hlen, hexec⟩ := hcompletes (not_lt.mp hlt)
    have hsplit : split (s.buf ++ [b]) = ([l :: rest], []) := by
      rw [hbuf, ← List.append_nil (l :: rest), split_frame_append (frameOk_cons.mpr (Nat.succ.inj hlen)), split_nil,
        List.append_nil]
    rw [hexec, receive_of_split hsplit, frameLength, List.flatMap_singleton]

/-! ## `RXC` (R67) -/

/-- The loop ends with an empty buffer, of which no length is known. -/
theorem drain_of_empty (k : Nat) {s : State} (hbuf : s.buf = []) (hreq : s.req = 0 ∨ s.req = frameLength s.buf) :
    drain k s = receive [] s := by
  rw [hbuf] at hreq
  rw [drain_nil k s hbuf, receive_nil (rxInv_of_empty hbuf (or_self_iff.mp hreq))]

/-- With a turn for each byte, the loop splits the buffer, `REQ` being unknown or already that of the frame begun. -/
theorem drain_eq_receive (k : Nat) (s : State) (hk : s.buf.length ≤ k)
    (hreq : s.req = 0 ∨ s.req = frameLength s.buf) : drain k s = receive [] s := by
  induction k generalizing s with
  | zero => exact drain_of_empty 0 (List.length_eq_zero_iff.mp (Nat.le_zero.mp hk)) hreq
  | succ k ih =>
    cases hbuf : s.buf with
    | nil => exact drain_of_empty (k + 1) hbuf hreq
    | cons l rest =>
      rw [hbuf] at hk hreq
      rw [drain_succ, hbuf, if_neg (List.cons_ne_nil l rest), reqAfter_cons hreq, List.length_cons]
      by_cases hle : l.toNat ≤ rest.length
      · have hdrop : ((l :: rest).drop (l.toNat + 1)).length ≤ k := by simp at hk ⊢; omega
        rw [if_pos (Nat.add_le_add_right hle 1), ih _ hdrop (.inl rfl)]
        simp [receive, hbuf, split_of_complete hle]
      · rw [if_neg (mt Nat.le_of_succ_le_succ hle)]
        simp [receive, hbuf, split_of_incomplete (not_le.mp hle), frameLength]

theorem exec_rxc (c : List Byte) {s : State} (h : RxInv s) : exec (.rxc c) s = .next (receive c s) := by
  cases c with
  | nil => rw [receive_nil h]; rfl
  | cons b bs =>
    rw [exec, execRxc_cons,
      drain_eq_receive _ { s with buf := s.buf ++ b :: bs } le_rfl (req_of_append h (b :: bs))]
    simp [receive]

/-- Settles O23: the loop has a turn for each byte of buffer and chunk. -/
theorem chunkIsSplitAndDispatched : Obligations.ChunkIsSplitAndDispatched := fun c _ h => exec_rxc c h

/-- Settles O29: the empty chunk does not reach the loop (decision D4). -/
theorem emptyChunkChangesNothing : Obligations.EmptyChunkChangesNothing := fun _ => rfl

/-! ## Both operations, and runs of them (R68) -/

/-- A receive operation, byte or chunk, receives its bytes. -/
theorem exec_of_receives {i : Instr} (hi : receives i = true) {s : State} (h : RxInv s) :
    exec i s = .next (receive (received i) s) := by
  cases i
  case rxb b => exact exec_rxb b h
  case rxc c => exact exec_rxc c h
  all_goals cases hi

theorem execAll_of_receives {is : List Instr} (his : ∀ i ∈ is, receives i = true) {s : State} (h : RxInv s) :
    execAll is s = .next (receive (is.flatMap received) s) := by
  induction is generalizing s with
  | nil => rw [List.flatMap_nil, receive_nil h, execAll]
  | cons i is ih =>
    obtain ⟨hi, his⟩ := List.forall_mem_cons.mp his
    rw [execAll_cons (exec_of_receives hi h), ih his (receive_rxInv _ s), List.flatMap_cons, receive_append]

theorem flatMap_received_rxb (c : List Byte) : (c.map .rxb).flatMap received = c := by
  simp [List.flatMap_map, received]

theorem flatMap_received_rxc (cs : List (List Byte)) : (cs.map .rxc).flatMap received = cs.flatten := by
  simp [List.flatMap_map, received, List.flatMap_id']

/-- Settles O24: both sides receive the same bytes. -/
theorem chunkEqualsItsBytes : Obligations.ChunkEqualsItsBytes := by
  intro c s h
  rw [execAll_of_receives (by simp [receives]) h, flatMap_received_rxb, exec_rxc c h]

/-- Settles O25: the chunks receive their concatenation. -/
theorem chunkBoundariesAreUnobservable : Obligations.ChunkBoundariesAreUnobservable := by
  intro cs s h
  rw [execAll_of_receives (by simp [receives]) h, flatMap_received_rxc, exec_rxc cs.flatten h]

/-! ## Frames from a frame boundary (R69, R70) -/

/-- Settles O27: a concatenation of frames splits into them. -/
theorem streamOfFramesIsRecovered : Obligations.StreamOfFramesIsRecovered := by
  intro fs s hfs hbuf hreq
  rw [exec_rxc fs.flatten (rxInv_of_empty hbuf hreq), receive_frames hfs hbuf hreq]

/-- A runt frame has no tag (R75, decision D7). -/
theorem frameOutputs_runt (c : Cfg) : frameOutputs c [0x00] = [.frame [0x00], .diag (.unhandled none)] := rfl

/-- Settles O28: the zero bytes are a concatenation of runt frames. -/
theorem zeroBytesAreRuntFrames : Obligations.ZeroBytesAreRuntFrames := by
  intro n s hbuf hreq
  have hfs : ∀ f ∈ List.replicate n [(0x00 : Byte)], frameOk f = true := fun f hf =>
    List.eq_of_mem_replicate hf ▸ frameOk_runt
  have hbytes : (List.replicate n [(0x00 : Byte)]).flatten = List.replicate n 0x00 := List.flatten_replicate_singleton
  rw [← hbytes, streamOfFramesIsRecovered _ s hfs hbuf hreq, List.flatMap_replicate, frameOutputs_runt]

/-! ## No byte is dropped, duplicated or reordered (R69, item 1) -/

/-- The bytes that have passed through the reassembler: those of the frames handed over, then those of the buffer. -/
def State.bytesSeen (s : State) : List Byte := (framesOf s.out).flatten ++ s.buf

theorem framesOf_append (os os' : List Output) : framesOf (os ++ os') = framesOf os ++ framesOf os' :=
  List.filterMap_append

/-- `DISPATCH` hands no frame over. -/
theorem framesOf_dispatchOutputs (c : Cfg) (f : List Byte) : framesOf (dispatchOutputs c f) = [] := by
  unfold dispatchOutputs dispatchFrame
  cases selectFrame f <;> rfl

theorem framesOf_frameOutputs (c : Cfg) (f : List Byte) : framesOf (frameOutputs c f) = [f] :=
  congrArg (f :: ·) (framesOf_dispatchOutputs c f)

theorem bytesSeen_append (c : List Byte) (s : State) :
    State.bytesSeen { s with buf := s.buf ++ c } = s.bytesSeen ++ c :=
  (List.append_assoc _ _ _).symm

/-- The bytes of a frame that leaves the buffer are seen in the frame handed over. -/
theorem bytesSeen_deliver (s : State) (n r : Nat) :
    State.bytesSeen { s with buf := s.buf.drop n, req := r, out := s.out ++ frameOutputs s.cfg (s.buf.take n) } =
      s.bytesSeen := by
  simp [State.bytesSeen, framesOf_append, framesOf_frameOutputs]

theorem bytesSeen_drain (k : Nat) (s : State) : (drain k s).bytesSeen = s.bytesSeen := by
  induction k generalizing s with
  | zero => rfl
  | succ k ih =>
    rw [drain_succ]
    split
    · rfl
    · split
      · rw [ih, bytesSeen_deliver]
      · rfl

theorem bytesSeen_rxb {b : Byte} {s t : State} (hexec : exec (.rxb b) s = .next t) :
    t.bytesSeen = s.bytesSeen ++ [b] := by
  rw [exec, execRxb_eq] at hexec
  obtain rfl := Host.Outcome.next.inj hexec
  rw [← bytesSeen_append]
  split
  · exact bytesSeen_deliver { s with buf := s.buf ++ [b] } _ _
  · rfl

theorem bytesSeen_rxc {c : List Byte} {s t : State} (hexec : exec (.rxc c) s = .next t) :
    t.bytesSeen = s.bytesSeen ++ c := by
  cases c with
  | nil =>
    obtain rfl := Host.Outcome.next.inj hexec
    exact (List.append_nil _).symm
  | cons b bs =>
    rw [exec, execRxc_cons] at hexec
    obtain rfl := Host.Outcome.next.inj hexec
    rw [bytesSeen_drain, bytesSeen_append]

theorem received_of_not_receives {i : Instr} (hi : receives i = false) : received i = [] := by
  cases i
  case rxb | rxc => cases hi
  all_goals rfl

/-- An operation that receives nothing and is not `RST` leaves the receive state and hands no frame over. -/
theorem exec_of_not_receives {i : Instr} (hrst : i ≠ .rst) (hi : receives i = false) (s : State) : ∃ seq' os,
    exec i s = .next { s with seq := seq', out := s.out ++ os } ∧ framesOf os = [] := by
  cases i
  case rst => exact absurd rfl hrst
  case rxb | rxc => cases hi
  case dispatch f => exact ⟨_, _, congrArg _ (dispatchFrame_spec f s), framesOf_dispatchOutputs s.cfg f⟩
  case cmdReset | cmdStatus | cmdTamper => exact ⟨_, _, congrArg _ (command_spec _ _ _ s), rfl⟩
  case cmdLon id unit h | cmdLoff id unit h =>
    cases hp : parseId id with
    | none => exact ⟨_, _, congrArg _ (lightCommand_refused hp _ unit h s), rfl⟩
    | some b => exact ⟨_, _, congrArg _ ((lightCommand_accepted hp _ unit h s).trans (command_spec _ _ _ s)), rfl⟩
  all_goals exact ⟨_, _, rfl, rfl⟩

/-- In any state, reached or not, an operation other than `RST` adds the bytes it receives. -/
theorem bytesSeen_exec {i : Instr} {s t : State} (hrst : i ≠ .rst) (hexec : exec i s = .next t) :
    t.bytesSeen = s.bytesSeen ++ received i := by
  cases hi : receives i with
  | true =>
    cases i
    case rxb b => exact bytesSeen_rxb hexec
    case rxc c => exact bytesSeen_rxc hexec
    all_goals cases hi
  | false =>
    obtain ⟨seq', os, hspec, hos⟩ := exec_of_not_receives hrst hi s
    obtain rfl := Host.Outcome.next.inj (hspec.symm.trans hexec)
    rw [received_of_not_receives hi]
    simp [State.bytesSeen, framesOf_append, hos]

/-- Settles O26: a receive operation adds its bytes, any other operation adds none. -/
theorem receivedBytesAreAccountedFor : Obligations.ReceivedBytesAreAccountedFor := by
  intro i s t hrst hexec
  exact bytesSeen_exec hrst hexec

end Sys2Proof.Machine
end

section
/-! # 42_dispatch_decoders.md: dispatch, the decoders and the scaled total (R73, R81, R83, R85)

What `DISPATCH` does to a frame is a function of what the frame selects: the sub-operation that is run
(`operationOf`), and the event it emits under a configuration (`eventOf`). The statements are read off these two. -/

namespace Sys2Proof.Machine

/-! ## What a frame selects (R73 to R75) -/

/-- The length byte plays no part in the selection (R73). -/
theorem selectFrame_length_byte (l l' : Byte) (r : List Byte) : selectFrame (l :: r) = selectFrame (l' :: r) := by
  cases r <;> rfl

theorem selectFrame_unknown_tag {t : Byte} (ht : isKnownTag t = false) (l : Byte) (p : List Byte) :
    selectFrame (l :: t :: p) = .unhandled (some t) := by
  simp only [isKnownTag, Bool.or_eq_false_iff, beq_eq_false_iff_ne] at ht
  obtain ⟨⟨⟨⟨hstatus, hresponse⟩, hlighting5⟩, hsecurity1⟩, helec2⟩ := ht
  rw [selectFrame, if_neg hstatus, if_neg hresponse, if_neg hlighting5, if_neg hsecurity1, if_neg helec2]

/-! The frame of a payload selects the decoder of its tag, with every field at the offset of its format
(R43 to R47). -/

theorem selectFrame_statusFrame (p : StatusPayload) : selectFrame (frameOf 0x01 p.toBytes) = .status p := rfl

theorem selectFrame_responseFrame (p : ResponsePayload) : selectFrame (frameOf 0x02 p.toBytes) = .response p := rfl

theorem selectFrame_lighting5Frame (p : Lighting5Payload) :
    selectFrame (frameOf 0x14 p.toBytes) = .lighting5 p := rfl

theorem selectFrame_security1Frame (p : Security1Payload) :
    selectFrame (frameOf 0x20 p.toBytes) = .security1 p := rfl

theorem selectFrame_elec2Frame (p : Elec2Payload) : selectFrame (frameOf 0x5A p.toBytes) = .elec2 p := rfl

/-! ## The sub-operation run -/

/-- The sub-operation that `DISPATCH` runs for what a frame selects; a payload that is too short runs none (R76). -/
def operationOf : FrameSel → Option Instr
  | .status p => some (.decStatus p)
  | .response p => some (.decResponse p)
  | .lighting5 p => some (.decLighting5 p)
  | .security1 p => some (.decSecurity1 p)
  | .elec2 p => some (.decElec2 p)
  | .unhandled t => some (.unhandled t)
  | .short _ _ _ => none

/-- Of bytes that are a frame, `decodeFrame` answers the sub-operation run. -/
theorem decodeFrame_eq_operationOf {f : List Byte} (hf : frameOk f = true) :
    decodeFrame f = operationOf (selectFrame f) := by
  rw [decodeFrame, if_pos hf]
  cases selectFrame f <;> rfl

/-- `DISPATCH` does to the state what the selected sub-operation does to it. -/
theorem exec_dispatch_of_operationOf {f : List Byte} {i : Instr} (h : operationOf (selectFrame f) = some i)
    (s : State) : exec (.dispatch f) s = exec i s := by
  rw [exec, execDispatch, dispatchFrame]
  generalize selectFrame f = sel at h ⊢
  cases sel
  case short => cases h
  all_goals
    obtain rfl := Option.some.inj h
    rfl

/-- The frame of a sub-operation runs it; that `UNHANDLED` is well-formed says that its tag is none of the five. -/
theorem operationOf_encodeFrame {i : Instr} {f : List Byte} (hi : i.WellFormed = true)
    (hf : encodeFrame i = some f) : operationOf (selectFrame f) = some i := by
  cases i
  case decStatus p => rw [← Option.some.inj hf, selectFrame_statusFrame, operationOf]
  case decResponse p => rw [← Option.some.inj hf, selectFrame_responseFrame, operationOf]
  case decLighting5 p => rw [← Option.some.inj hf, selectFrame_lighting5Frame, operationOf]
  case decSecurity1 p => rw [← Option.some.inj hf, selectFrame_security1Frame, operationOf]
  case decElec2 p => rw [← Option.some.inj hf, selectFrame_elec2Frame, operationOf]
  case unhandled t =>
    cases t with
    | none => rw [← Option.some.inj hf]; rfl
    | some t =>
      have ht : isKnownTag t = false := by
        simpa [Instr.WellFormed, Instr.operandsOk, Instr.names] using hi
      rw [← Option.some.inj hf, frameOf, selectFrame_unknown_tag ht, operationOf]
  all_goals cases hf

/-! ## Purity (R83) -/

theorem exec_dispatch (f : List Byte) (s : State) :
    exec (.dispatch f) s = .next { s with out := s.out ++ dispatchOutputs s.cfg f } :=
  congrArg Host.Outcome.next (dispatchFrame_spec f s)

/-- Frames that select the same put out the same. -/
theorem dispatchOutputs_congr {f g : List Byte} (h : selectFrame f = selectFrame g) (c : Cfg) :
    dispatchOutputs c f = dispatchOutputs c g := by
  rw [dispatchOutputs, dispatchFrame, h, dispatchOutputs, dispatchFrame]

/-- Dispatching a frame leaves `CFG`, so dispatching it again appends the same outputs. -/
theorem execAll_dispatch_twice (f : List Byte) (s : State) : execAll [.dispatch f, .dispatch f] s =
    .next { s with out := s.out ++ dispatchOutputs s.cfg f ++ dispatchOutputs s.cfg f } := by
  rw [execAll_cons (exec_dispatch f s), execAll_cons (exec_dispatch f _), execAll]

/-- Settles O30: `DISPATCH` appends what the selection says, and the selection ignores the length byte. -/
theorem decodersArePure : Obligations.DecodersArePure :=
  ⟨exec_dispatch, fun c l l' r => dispatchOutputs_congr (selectFrame_length_byte l l' r) c, execAll_dispatch_twice,
    fun _ _ s hi hf => (exec_dispatch_of_operationOf (operationOf_encodeFrame hi hf) s).symm⟩

/-! ## Descriptions (R51, R85) -/

/-- `lookup` is the library's association list lookup. -/
theorem lookup_eq_list_lookup {α : Type} (table : List (Byte × α)) (code : Byte) :
    lookup table code = table.lookup code := by
  induction table with
  | nil => rfl
  | cons e table ih =>
    obtain ⟨k, d⟩ := e
    by_cases hk : k = code
    · rw [lookup, if_pos hk, hk, List.lookup_cons_self]
    · rw [lookup, if_neg hk, ih, List.lookup_cons, beq_false_of_ne (Ne.symm hk)]

theorem lookup_eq_none_iff {α : Type} {table : List (Byte × α)} {code : Byte} :
    lookup table code = none ↔ ∀ e ∈ table, e.1 ≠ code := by
  simp only [lookup_eq_list_lookup, List.lookup_eq_none_iff, bne_iff_ne, ne_comm]

theorem mem_of_lookup_eq_some {α : Type} {table : List (Byte × α)} {code : Byte} {d : α}
    (h : lookup table code = some d) : (code, d) ∈ table := by
  rw [lookup_eq_list_lookup, List.lookup_eq_some_iff] at h
  obtain ⟨before, after, rfl, -⟩ := h
  exact List.mem_append_right before List.mem_cons_self

/-! ## A payload that is long enough has all the fields of its format (R43 to R47) -/

theorem parseStatus_of_le_length (p : List Byte) (h : 5 ≤ p.length) : ∃ q, parseStatus p = some q :=
  match p, h with
  | _ :: _ :: _ :: _ :: _ :: _, _ => ⟨_, rfl⟩

theorem parseResponse_of_le_length (p : List Byte) (h : 3 ≤ p.length) : ∃ q, parseResponse p = some q :=
  match p, h with
  | _ :: _ :: _ :: _, _ => ⟨_, rfl⟩

theorem parseLighting5_of_le_length (p : List Byte) (h : 7 ≤ p.length) : ∃ q, parseLighting5 p = some q :=
  match p, h with
  | _ :: _ :: _ :: _ :: _ :: _ :: _ :: _, _ => ⟨_, rfl⟩

theorem parseSecurity1_of_le_length (p : List Byte) (h : 7 ≤ p.length) : ∃ q, parseSecurity1 p = some q :=
  match p, h with
  | _ :: _ :: _ :: _ :: _ :: _ :: _ :: _, _ => ⟨_, rfl⟩

theorem parseElec2_of_le_length (p : List Byte) (h : 15 ≤ p.length) : ∃ q, parseElec2 p = some q :=
  match p, h with
  | _ :: _ :: _ :: _ :: _ :: _ :: _ :: _ :: _ :: _ :: _ :: _ :: _ :: _ :: _ :: _, _ => ⟨_, rfl⟩

/-! ## The event emitted (R77 to R82) -/

/-- The event that `DISPATCH` emits under a configuration for what a frame selects; the default arm and a payload that
is too short emit none (R74 to R76). -/
def eventOf (c : Cfg) : FrameSel → Option Event
  | .status p => some (statusEvent c p)
  | .response p => some (responseEvent c p)
  | .lighting5 p => some (lighting5Event c p)
  | .security1 p => some (security1Event c p)
  | .elec2 p => some (elec2Event c p)
  | .unhandled _ => none
  | .short _ _ _ => none

/-- A frame whose selection has an event puts out that event and no diagnostic. -/
theorem dispatchOutputs_of_eventOf {c : Cfg} {f : List Byte} {e : Event} (h : eventOf c (selectFrame f) = some e) :
    dispatchOutputs c f = [.event e] := by
  rw [dispatchOutputs, dispatchFrame]
  generalize selectFrame f = sel at h ⊢
  cases sel
  case unhandled | short => cases h
  all_goals
    obtain rfl := Option.some.inj h
    rfl

/-- Under a known tag a payload that is long enough has an event, whatever its bytes. -/
theorem exists_eventOf_of_le_length {tag : Byte} {need : Nat} {p : List Byte}
    (htag : (tag, need) ∈ [((0x01 : Byte), 5), (0x02, 3), (0x14, 7), (0x20, 7), (0x5A, 15)])
    (hp : need ≤ p.length) (c : Cfg) (l : Byte) : ∃ e, eventOf c (selectFrame (l :: tag :: p)) = some e := by
  simp only [List.mem_cons, Prod.mk.injEq, List.not_mem_nil, or_false] at htag
  obtain ⟨rfl, rfl⟩ | ⟨rfl, rfl⟩ | ⟨rfl, rfl⟩ | ⟨rfl, rfl⟩ | ⟨rfl, rfl⟩ := htag
  · obtain ⟨q, hq⟩ := parseStatus_of_le_length p hp
    exact ⟨statusEvent c q, by simp [selectFrame, hq, selectOr, eventOf]⟩
  · obtain ⟨q, hq⟩ := parseResponse_of_le_length p hp
    exact ⟨responseEvent c q, by simp [selectFrame, hq, selectOr, eventOf]⟩
  · obtain ⟨q, hq⟩ := parseLighting5_of_le_length p hp
    exact ⟨lighting5Event c q, by simp [selectFrame, hq, selectOr, eventOf]⟩
  · obtain ⟨q, hq⟩ := parseSecurity1_of_le_length p hp
    exact ⟨security1Event c q, by simp [selectFrame, hq, selectOr, eventOf]⟩
  · obtain ⟨q, hq⟩ := parseElec2_of_le_length p hp
    exact ⟨elec2Event c q, by simp [selectFrame, hq, selectOr, eventOf]⟩

/-- The tables of `CFG` fill in descriptions only; of the raw fields just the ELEC2 total depends on `CFG`, through
the choice of the 48-bit decoder (R61, R63). -/
theorem eventOf_undescribed {c c' : Cfg} (h : c.u48Corrected = c'.u48Corrected) (sel : FrameSel) :
    (eventOf c sel).map Event.undescribed = (eventOf c' sel).map Event.undescribed := by
  cases sel
  case elec2 p => simp only [eventOf, elec2Event, uint48, h]
  all_goals rfl

/-- Settles O40: a long enough payload has an event under every configuration, with the same raw fields. -/
theorem unknownCodesNeverSuppressAnEvent : Obligations.UnknownCodesNeverSuppressAnEvent := by
  refine ⟨fun α table code => ⟨lookup_eq_none_iff, fun _ => mem_of_lookup_eq_some⟩, fun l tn p s htn hp => ?_⟩
  obtain ⟨e, he⟩ := exists_eventOf_of_le_length htn hp s.cfg l
  refine ⟨e, by rw [exec_dispatch, dispatchOutputs_of_eventOf he], fun c hc => ?_⟩
  obtain ⟨e', he'⟩ := exists_eventOf_of_le_length htn hp c l
  have hraw := eventOf_undescribed hc (selectFrame (l :: tn.1 :: p))
  rw [he, he', Option.map_some, Option.map_some] at hraw
  exact ⟨e', dispatchOutputs_of_eventOf he', Option.some.inj hraw⟩

/-! ## The scaled total (R81, decision D12) -/

/-- Rounding to nearest as the floor of the quotient plus one half: both sides of the division by 223666. -/
theorem scaleCenti_floor (c : Nat) : 223666 * scaleCenti c ≤ c * 100000 + 111833 ∧
    c * 100000 + 111833 < 223666 * (scaleCenti c + 1) :=
  ⟨Nat.mul_div_le _ _, Nat.lt_mul_div_succ _ (by decide)⟩

/-- No quotient lies halfway between two hundredths: an even number would equal an odd one (R81). -/
theorem scaled_ne_tie (c k : Nat) : c * 100000 + 111833 ≠ 223666 * k := by
  omega

theorem scaleCenti_mono {c d : Nat} (h : c ≤ d) : scaleCenti c ≤ scaleCenti d :=
  Nat.div_le_div_right (Nat.add_le_add_right (Nat.mul_le_mul_right _ h) _)

/-- Settles O59: the floor's bounds, of which the lower is strict since there are no ties. -/
theorem scaledTotalIsTheNearestHundredth : Obligations.ScaledTotalIsTheNearestHundredth := by
  refine ⟨fun c => ?_, fun _ _ => scaleCenti_mono, by decide, by decide⟩
  obtain ⟨hlower, hupper⟩ := scaleCenti_floor c
  have hstrict : 223666 * scaleCenti c < c * 100000 + 111833 :=
    lt_of_le_of_ne hlower (scaled_ne_tie c (scaleCenti c)).symm
  constructor <;> omega

end Sys2Proof.Machine
end

section
/-! # 43_commands.md: the allocator, the commands and settled writes (R88 to R102)

What R91 inserts into a template is a list of writes, each a byte at an offset (`writeAll`); under a well-formed template
no two of them meet, so that each byte of a light command is read off from its own write. -/

namespace Sys2Proof.Machine

/-! ## The sequence allocator (R88, R102) -/

theorem exec_alloc (s : State) : exec .alloc s =
    .next { s with seq := seqNext s.seq, out := s.out ++ [.ret (.seq s.seq)] } := rfl

/-- On the values the counter holds, the wrap of R88 is counting modulo 257. -/
theorem seqNext_eq_mod {n : Nat} (h : n ≤ 256) : seqNext n = (n + 1) % 257 := by
  unfold seqNext seqMax
  split <;> omega

/-- The byte of an allocated number is its residue modulo 256 (R89). -/
theorem seqWire_eq_mod (n : Nat) : seqWire n = BitVec.ofNat 8 (n % 256) :=
  BitVec.eq_of_toNat_eq (by simp [seqWire])

/-- The numbers that `n` allocations return, from `SEQ = m` on. -/
def allocated (m n : Nat) : List Nat := (List.range n).map fun k => (m + k) % 257

/-- The first number is `SEQ` itself, the others are those from its successor on. -/
theorem allocated_succ {m : Nat} (h : m ≤ 256) (n : Nat) : allocated m (n + 1) = m :: allocated (seqNext m) n := by
  have hm : m % 257 = m := Nat.mod_eq_of_lt (Nat.lt_succ_of_le h)
  simp [allocated, List.range_succ_eq_map, seqNext_eq_mod h, hm, Nat.add_right_comm, Nat.add_assoc]

/-- From 0, the numbers of one whole cycle come before those of the next. -/
theorem allocated_zero_cycle_add {n : Nat} (h : n ≤ 257) : allocated 0 (257 + n) = List.range 257 ++ List.range n := by
  have hcycle : ∀ j ≤ 257, (List.range j).map (· % 257) = List.range j := fun j hj =>
    (List.map_congr_left fun k hk => Nat.mod_eq_of_lt ((List.mem_range.mp hk).trans_le hj)).trans (List.map_id _)
  simp [allocated, List.range_add, Function.comp_def, hcycle _ le_rfl, hcycle n h]

/-- Each allocation returns `SEQ` and leaves its successor, from which the others go on. -/
theorem execAll_replicate_alloc (n : Nat) {s : State} (h : s.seq ≤ 256) :
    execAll (List.replicate n .alloc) s = .next { s with
      seq := (s.seq + n) % 257, out := s.out ++ (allocated s.seq n).map fun k => .ret (.seq k) } := by
  induction n generalizing s with
  | zero =>
    have hs : s.seq % 257 = s.seq := Nat.mod_eq_of_lt (Nat.lt_succ_of_le h)
    simp [execAll, allocated, hs]
  | succ n ih =>
    have hnext : seqNext s.seq ≤ 256 := by rw [seqNext_eq_mod h]; omega
    have hseq : (seqNext s.seq + n) % 257 = (s.seq + (n + 1)) % 257 := by rw [seqNext_eq_mod h]; omega
    rw [List.replicate_succ, execAll_cons (exec_alloc s), ih hnext, allocated_succ h]
    simp [hseq]

/-- Settles O43: the general count, and from reset one whole cycle with 43 numbers of the next. -/
theorem allocationsCountModulo257 : Obligations.AllocationsCountModulo257 := by
  constructor
  · intro n s h
    rw [execAll_replicate_alloc n h, allocated, List.map_map]
    rfl
  · have hreset : State.reset.seq = 0 := rfl
    have hcycle : allocated 0 300 = List.range 257 ++ List.range 43 := allocated_zero_cycle_add (n := 43) (by decide)
    rw [execAll_replicate_alloc 300 (Nat.zero_le 256), hreset, hcycle]
    rfl

/-! ## The bytes of a command (R89, R91) -/

/-- The bytes after a list of writes, each a byte at an offset. -/
def writeAll (ws : List (Nat × Byte)) (bs : List Byte) : List Byte := ws.foldl (fun bs w => bs.set w.1 w.2) bs

theorem writeAll_cons (w : Nat × Byte) (ws : List (Nat × Byte)) (bs : List Byte) :
    writeAll (w :: ws) bs = writeAll ws (bs.set w.1 w.2) := rfl

/-- An offset that is not written keeps its byte. -/
theorem getElem?_writeAll_of_notMem {ws : List (Nat × Byte)} {j : Nat} (hj : j ∉ ws.map Prod.fst) (bs : List Byte) :
    (writeAll ws bs)[j]? = bs[j]? := by
  induction ws generalizing bs with
  | nil => rfl
  | cons w ws ih =>
    obtain ⟨hne, hrest⟩ := List.ne_and_not_mem_of_not_mem_cons hj
    rw [writeAll_cons, ih hrest, List.getElem?_set_ne (Ne.symm hne)]

/-- An offset that is written once, inside the bytes, holds what was written there. -/
theorem getElem?_writeAll_of_mem {ws : List (Nat × Byte)} (hws : (ws.map Prod.fst).Nodup) {j : Nat} {v : Byte}
    (hmem : (j, v) ∈ ws) {bs : List Byte} (hj : j < bs.length) : (writeAll ws bs)[j]? = some v := by
  induction ws generalizing bs with
  | nil => cases hmem
  | cons w ws ih =>
    obtain ⟨hfst, hrest⟩ := List.nodup_cons.mp hws
    rw [writeAll_cons]
    obtain rfl | hmem := List.mem_cons.mp hmem
    · rw [getElem?_writeAll_of_notMem hfst, List.getElem?_set_self hj]
    · exact ih hrest hmem (by rwa [List.length_set])

theorem tpl_wellFormed {c : Cfg} (hc : c.WellFormed) (k : CmdKind) : (c.tpl k).WellFormed k := by
  obtain ⟨hreset, hstatus, htamper, hon, hoff⟩ := hc
  cases k <;> assumption

/-- Without operands only the sequence byte is inserted (R91). -/
theorem build_plain {k : CmdKind} {t : Template} (ht : t.WellFormed k) (n : Nat) :
    build k t n none = t.bytes.set t.seqOff (BitVec.ofNat 8 (n % 256)) := by
  simp [build_wellFormed ht, assemble, seqWire_eq_mod]

/-- The offsets and the flag of a template that has all the fields of a light command (30_encoding.md R55). -/
structure LightFields (t : Template) (io uo fo : Nat) (flag : Byte) : Prop where
  idOff : t.idOff = some io
  unitOff : t.unitOff = some uo
  flagOff : t.flagOff = some fo
  flag : t.flag = some flag

theorem exists_lightFields {k : CmdKind} {t : Template} (ht : t.WellFormed k) (hk : k.isLight = true) :
    ∃ io uo fo flag, LightFields t io uo fo flag := by
  obtain ⟨-, -, -, -, hid, hunit, hoff, hflag⟩ := ht
  rw [hk] at hid hunit hoff hflag
  obtain ⟨io, hid⟩ := Option.isSome_iff_exists.mp hid
  obtain ⟨uo, hunit⟩ := Option.isSome_iff_exists.mp hunit
  obtain ⟨fo, hoff⟩ := Option.isSome_iff_exists.mp hoff
  obtain ⟨flag, hflag⟩ := Option.isSome_iff_exists.mp hflag
  exact ⟨io, uo, fo, flag, hid, hunit, hoff, hflag⟩

/-- The writes of R91 for a light command: the sequence byte, the identifier, the unit code and the flag. -/
def lightWrites (t : Template) (io uo fo : Nat) (flag : Byte) (n : Nat) (b : Bytes3) (unit : Byte) :
    List (Nat × Byte) :=
  [(t.seqOff, BitVec.ofNat 8 (n % 256)), (io, b.b0), (io + 1, b.b1), (io + 2, b.b2), (uo, unit), (fo, flag)]

section LightFields
variable {t : Template} {io uo fo : Nat} {flag : Byte} (hf : LightFields t io uo fo flag)
include hf

theorem LightFields.fields : t.fields = [(t.seqOff, 1), (io, 3), (uo, 1), (fo, 1)] := by
  simp [Template.fields, hf.idOff, hf.unitOff, hf.flagOff]

/-- Conditions (3) and (4) of R55 for a light template: the six offsets written differ and lie inside the image. -/
theorem LightFields.offsets {k : CmdKind} (ht : t.WellFormed k) (n : Nat) (b : Bytes3) (unit : Byte) :
    ((lightWrites t io uo fo flag n b unit).map Prod.fst).Nodup ∧
    ∀ j ∈ (lightWrites t io uo fo flag n b unit).map Prod.fst, j < t.bytes.length := by
  obtain ⟨-, -, hinside, hdisjoint, -⟩ := ht
  rw [hf.fields] at hinside hdisjoint
  simp only [List.pairwise_cons, List.mem_cons, List.not_mem_nil, or_false, forall_eq_or_imp, forall_eq]
    at hinside hdisjoint
  simp only [lightWrites, List.map_cons, List.map_nil, List.nodup_cons, List.nodup_nil, List.mem_cons,
    List.not_mem_nil, or_false, not_false_eq_true, and_true, forall_eq_or_imp, forall_eq]
  omega

theorem LightFields.assemble_eq_writeAll (n : Nat) (b : Bytes3) (unit : Byte) :
    assemble t n (some (b, unit)) = writeAll (lightWrites t io uo fo flag n b unit) t.bytes := by
  simp only [assemble, hf.idOff, hf.unitOff, hf.flagOff, hf.flag, seqWire_eq_mod]
  rfl

/-- Every byte that is inserted stands in the command at its own offset. -/
theorem LightFields.getElem?_assemble {k : CmdKind} (ht : t.WellFormed k) {n : Nat} {b : Bytes3} {unit : Byte}
    {j : Nat} {v : Byte} (hmem : (j, v) ∈ lightWrites t io uo fo flag n b unit) :
    (assemble t n (some (b, unit)))[j]? = some v := by
  obtain ⟨hnodup, hinside⟩ := hf.offsets ht n b unit
  rw [hf.assemble_eq_writeAll]
  exact getElem?_writeAll_of_mem hnodup hmem (hinside j (List.mem_map_of_mem hmem))

/-- Every other byte is the template's. -/
theorem LightFields.getElem?_assemble_of_notMem {j : Nat} (hj : j ∉ [t.seqOff, io, io + 1, io + 2, uo, fo])
    (n : Nat) (b : Bytes3) (unit : Byte) : (assemble t n (some (b, unit)))[j]? = t.bytes[j]? := by
  rw [hf.assemble_eq_writeAll]
  exact getElem?_writeAll_of_notMem hj _

end LightFields

/-! ## The commands (R92 to R97) -/

/-- Settles O44: each of the three is `command` of its kind, without operands. -/
theorem plainCommandsSendTheirTemplate : Obligations.PlainCommandsSendTheirTemplate := by
  intro it h s hit
  obtain ⟨k, hexec, htpl⟩ : ∃ k, exec it.1 s = .next (command k none h s) ∧ it.2 s.cfg = s.cfg.tpl k := by
    simp only [List.mem_cons, List.not_mem_nil, or_false] at hit
    obtain rfl | rfl | rfl := hit
    exacts [⟨.reset, rfl, rfl⟩, ⟨.getStatus, rfl, rfl⟩, ⟨.resetTamper, rfl, rfl⟩]
  rw [hexec, htpl, command_spec]
  exact ⟨build k (s.cfg.tpl k) s.seq none, rfl, build_length .., fun hcfg => build_plain (tpl_wellFormed hcfg k) _⟩

/-- Settles O45: an accepted light command is `command` of its kind with the parsed bytes, and each byte it inserts
stands at its own offset. -/
theorem lightCommandsSendTheirOperands : Obligations.LightCommandsSendTheirOperands := by
  intro it id b unit h s hit hp
  obtain ⟨k, hk, hexec, htpl⟩ : ∃ k, k.isLight = true ∧ exec it.1 s = .next (lightCommand k id unit h s) ∧
      it.2 s.cfg = s.cfg.tpl k := by
    simp only [List.mem_cons, List.not_mem_nil, or_false] at hit
    obtain rfl | rfl := hit
    exacts [⟨.lightOn, rfl, rfl, rfl⟩, ⟨.lightOff, rfl, rfl, rfl⟩]
  rw [hexec, htpl, lightCommand_accepted hp, command_spec]
  refine ⟨build k (s.cfg.tpl k) s.seq (some (b, unit)), rfl, build_length .., fun hcfg => ?_⟩
  have ht := tpl_wellFormed hcfg k
  obtain ⟨io, uo, fo, flag, hf⟩ := exists_lightFields ht hk
  rw [build_wellFormed ht]
  refine ⟨io, uo, fo, flag, hf.idOff, hf.unitOff, hf.flagOff, hf.flag, ?_, ?_, ?_, ?_, ?_, ?_,
    fun j hj => hf.getElem?_assemble_of_notMem hj ..⟩
  all_goals exact hf.getElem?_assemble ht (by simp [lightWrites])

/-! ## Settled writes (R98, R100) -/

/-- Settles O20: `TXDONE` only appends the completion. -/
theorem writeSettlementIsForwarded : Obligations.WriteSettlementIsForwarded := fun _ _ _ _ => rfl

end Sys2Proof.Machine
end

section
/-! # 44_hex_format.md: hexadecimal and identifier texts (R104 to R107)

`hex2` writes the nibbles of a byte and `hexPair` reads them in either case, so that reading and writing again
upper-cases the digits (`hex2_of_hexPair`). An identifier is three such pairs behind an optional `0x`
(`parseId_eq_some_iff`). -/

namespace Sys2Proof.Machine

/-! ## The text of a byte (R105) -/

theorem getElem?_upperDigits {n : Nat} (h : n < 16) : "0123456789ABCDEF".toList[n]? = some (hexDigit n) := by
  revert h; revert n; decide

theorem toNat_highNibble (v : Byte) : (v.extractLsb 7 4).toNat = v.toNat / 16 := by
  have hv := v.isLt
  rw [BitVec.extractLsb_toNat, Nat.shiftRight_eq_div_pow]
  omega

theorem toNat_lowNibble (v : Byte) : (v.extractLsb 3 0).toNat = v.toNat % 16 := by
  rw [BitVec.extractLsb_toNat, Nat.shiftRight_zero]

/-- Settles O53: the quotient and the remainder by 16 are the nibbles, and the digits stand in order of value. -/
theorem hex2IsTwoUpperCaseDigits : Obligations.Hex2IsTwoUpperCaseDigits := by
  intro v
  have hhigh : v.toNat / 16 < 16 := Nat.div_lt_of_lt_mul v.isLt
  have hlow : v.toNat % 16 < 16 := Nat.mod_lt _ (by decide)
  rw [toNat_highNibble, toNat_lowNibble]
  exact ⟨hexDigit (v.toNat / 16), hexDigit (v.toNat % 16), rfl, getElem?_upperDigits hhigh, getElem?_upperDigits hlow⟩

/-! ## The texts of byte sequences (R104, R106) -/

theorem length_hex2 (b : Byte) : (hex2 b).length = 2 := rfl

theorem getElem?_toHex {bytes : List Byte} {j : Nat} {b : Byte} (h : bytes[j]? = some b) (pre : Option Text) :
    (toHex bytes pre)[j]? = some (pre.getD [] ++ hex2 b) := by
  rw [toHex, List.getElem?_map, h, Option.map_some]

theorem idString_eq_flatMap (bytes : List Byte) : idString bytes = "0x".toList ++ bytes.flatMap hex2 := rfl

theorem drop_two_idString (bytes : List Byte) : (idString bytes).drop 2 = bytes.flatMap hex2 := rfl

theorem length_flatMap_hex2 (bytes : List Byte) : (bytes.flatMap hex2).length = 2 * bytes.length := by
  simp [List.length_flatMap, length_hex2, Nat.mul_comm]

/-- The digits after those of `j` bytes are the digits of the bytes after these. -/
theorem drop_flatMap_hex2 (bytes : List Byte) (j : Nat) :
    (bytes.flatMap hex2).drop (2 * j) = (bytes.drop j).flatMap hex2 := by
  induction j generalizing bytes with
  | zero => rfl
  | succ j ih =>
    cases bytes with
    | nil => simp
    | cons b bytes =>
      rw [List.flatMap_cons, Nat.mul_succ, Nat.add_comm, ← List.drop_drop, List.drop_left' (length_hex2 b), ih,
        List.drop_succ_cons]

theorem take_drop_idString {bytes : List Byte} {j : Nat} {b : Byte} (h : bytes[j]? = some b) :
    ((idString bytes).drop (2 + 2 * j)).take 2 = hex2 b := by
  obtain ⟨hj, rfl⟩ := List.getElem?_eq_some_iff.mp h
  calc ((idString bytes).drop (2 + 2 * j)).take 2
      = ((bytes.flatMap hex2).drop (2 * j)).take 2 := by rw [← List.drop_drop, drop_two_idString]
    _ = ((bytes[j] :: bytes.drop (j + 1)).flatMap hex2).take 2 := by
        rw [drop_flatMap_hex2, List.drop_eq_getElem_cons hj]
    _ = hex2 bytes[j] := List.take_left' (length_hex2 _)

/-- Settles O54: the texts of `to_hex` one by one, and the digits of `id_string` two by two. -/
theorem hexTextsAnswer : Obligations.HexTextsAnswer := by
  refine ⟨fun bytes pre s => ⟨toHex bytes pre, rfl, List.length_map .., fun _ _ h => getElem?_toHex h pre⟩,
    fun bytes s => ⟨idString bytes, rfl, ?_, rfl, fun _ _ => take_drop_idString⟩⟩
  rw [idString_eq_flatMap, List.length_append, length_flatMap_hex2]
  rfl

/-! ## Reading digits and writing them again (R59, R90) -/

theorem isLower_iff_toNat (c : Char) : c.isLower = true ↔ 97 ≤ c.toNat ∧ c.toNat ≤ 122 := by
  simp [Char.isLower, UInt32.le_iff_toNat_le]

theorem toUpper_of_toNat_lt {c : Char} (h : c.toNat < 97) : c.toUpper = c :=
  Char.toUpper_eq_of_not_isLower (by rw [isLower_iff_toNat]; omega)

theorem toUpper_of_toNat_mem {c : Char} (h : 97 ≤ c.toNat ∧ c.toNat ≤ 122) :
    c.toUpper = Char.ofNat (c.toNat - 32) :=
  Char.toUpper_eq_of_isLower ((isLower_iff_toNat c).mpr h)

/-- A digit is read as the value for which it is written, upper-cased: the three ranges of `hexval` (R90). -/
theorem hexDigit_of_hexVal {c : Char} {n : Nat} (h : hexVal c = some n) : n < 16 ∧ hexDigit n = c.toUpper := by
  simp only [hexVal] at h
  split_ifs at h with hdigit hupper hlower <;> obtain rfl := Option.some.inj h
  · have hcode : 48 + (c.toNat - 48) = c.toNat := by omega
    rw [hexDigit, if_pos (by omega), toUpper_of_toNat_lt (by omega), hcode, Char.ofNat_toNat]
    exact ⟨by omega, rfl⟩
  · have hcode : 55 + (c.toNat - 55) = c.toNat := by omega
    rw [hexDigit, if_neg (by omega), toUpper_of_toNat_lt (by omega), hcode, Char.ofNat_toNat]
    exact ⟨by omega, rfl⟩
  · have hcode : 55 + (c.toNat - 87) = c.toNat - 32 := by omega
    rw [hexDigit, if_neg (by omega), toUpper_of_toNat_mem (by omega), hcode]
    exact ⟨by omega, rfl⟩

theorem hexPair_eq_some_iff {hi lo : Char} {b : Byte} :
    hexPair hi lo = some b ↔ ∃ h l, hexVal hi = some h ∧ hexVal lo = some l ∧ b = BitVec.ofNat 8 (h * 16 + l) := by
  unfold hexPair
  cases hexVal hi <;> cases hexVal lo <;> simp [eq_comm]

/-- The byte read from a pair of digits is written as that pair, upper-cased. -/
theorem hex2_of_hexPair {hi lo : Char} {b : Byte} (hp : hexPair hi lo = some b) :
    hex2 b = [hi.toUpper, lo.toUpper] := by
  obtain ⟨h, l, hhi, hlo, rfl⟩ := hexPair_eq_some_iff.mp hp
  obtain ⟨hh, hhdigit⟩ := hexDigit_of_hexVal hhi
  obtain ⟨hl, hldigit⟩ := hexDigit_of_hexVal hlo
  have hval : (BitVec.ofNat 8 (h * 16 + l)).toNat = h * 16 + l := Nat.mod_eq_of_lt (by omega)
  have hdiv : (h * 16 + l) / 16 = h := by omega
  have hmod : (h * 16 + l) % 16 = l := by omega
  rw [hex2, hval, hdiv, hmod, hhdigit, hldigit]

/-! ## Identifiers (R106, R107) -/

theorem idString_bytes3 (b : Bytes3) :
    idString b.toList = "0x".toList ++ hex2 b.b0 ++ hex2 b.b1 ++ hex2 b.b2 := rfl

theorem afterPrefix_eq_ite (t : Text) :
    afterPrefix t = if t.take 2 = "0x".toList then t.drop 2 else t := by
  unfold afterPrefix
  split
  · rfl
  · next hne =>
    have htake : t.take 2 ≠ "0x".toList := fun htake =>
      hne (t.drop 2) ((List.take_append_drop 2 t).symm.trans (congrArg (· ++ t.drop 2) htake))
    rw [if_neg htake]

/-- A text is accepted when three pairs of digits follow the optional `0x` (R59, R90). -/
theorem parseId_eq_some_iff {t : Text} {b : Bytes3} : parseId t = some b ↔
    ∃ h0 l0 h1 l1 h2 l2, afterPrefix t = [h0, l0, h1, l1, h2, l2] ∧
      hexPair h0 l0 = some b.b0 ∧ hexPair h1 l1 = some b.b1 ∧ hexPair h2 l2 = some b.b2 := by
  constructor
  · intro h
    unfold parseId at h
    split at h
    · next h0 l0 h1 l1 h2 l2 ht =>
      split at h
      · next b0 b1 b2 hp0 hp1 hp2 =>
        obtain rfl := Option.some.inj h
        exact ⟨h0, l0, h1, l1, h2, l2, ht, hp0, hp1, hp2⟩
      · cases h
    · cases h
  · rintro ⟨h0, l0, h1, l1, h2, l2, ht, hp0, hp1, hp2⟩
    simp only [parseId, ht, hp0, hp1, hp2]

/-- The identifier of an event is accepted with the same bytes (R107). -/
theorem parseId_idString (b : Bytes3) : parseId (idString b.toList) = some b :=
  parseId_eq_some_iff.mpr ⟨_, _, _, _, _, _, rfl, hexPair_hex2 b.b0, hexPair_hex2 b.b1, hexPair_hex2 b.b2⟩

/-- The identifier of the bytes of an accepted text: its digits upper-cased behind `0x` (R107). -/
theorem idString_of_parseId {t : Text} {b : Bytes3} (h : parseId t = some b) :
    idString b.toList = "0x".toList ++ (afterPrefix t).map Char.toUpper := by
  obtain ⟨h0, l0, h1, l1, h2, l2, ht, hp0, hp1, hp2⟩ := parseId_eq_some_iff.mp h
  rw [idString_bytes3, hex2_of_hexPair hp0, hex2_of_hexPair hp1, hex2_of_hexPair hp2, ht]
  rfl

/-- Settles O52: `PARSEID` reads the digits that `id_string` writes, and writing what was read upper-cases. -/
theorem identifierRoundTrip : Obligations.IdentifierRoundTrip :=
  ⟨parseId_idString, fun t _ h => by rw [idString_of_parseId h, afterPrefix_eq_ite t]⟩

/-! ## A light-on command fed back (S6; G5, G6 and G11) -/

/-- A frame received whole at a frame boundary is dispatched and leaves nothing behind (R69, item 4). -/
theorem exec_rxc_frame {f : List Byte} {s : State} (hf : frameOk f = true) (hbuf : s.buf = []) (hreq : s.req = 0) :
    exec (.rxc f) s = .next { s with out := s.out ++ frameOutputs s.cfg f } := by
  simpa using streamOfFramesIsRecovered [f] s (by simpa using hf) hbuf hreq

/-- The frame of a LIGHTING5 payload is handed over and gives that payload's event (R79). -/
theorem frameOutputs_lighting5Frame (c : Cfg) (p : Lighting5Payload) :
    frameOutputs c (frameOf 0x14 p.toBytes) = [.frame (frameOf 0x14 p.toBytes), .event (lighting5Event c p)] := by
  rw [frameOutputs, dispatchOutputs_of_eventOf (by rw [selectFrame_lighting5Frame, eventOf])]

/-- The LIGHTING5 payload that a light-on command of G11 carries. -/
def lightOnPayload (n : Nat) (b : Bytes3) (unit : Byte) : Lighting5Payload :=
  ⟨0x00, seqWire n, b, unit, 0x01, [0x00, 0x00]⟩

theorem length_toBytes_lightOnPayload (n : Nat) (b : Bytes3) (unit : Byte) :
    (lightOnPayload n b unit).toBytes.length = 9 := rfl

theorem frameOk_lightOnFrame (n : Nat) (b : Bytes3) (unit : Byte) :
    frameOk (frameOf 0x14 (lightOnPayload n b unit).toBytes) = true :=
  frameOk_frameOf _ _ (by rw [length_toBytes_lightOnPayload]; decide)

/-- The light-on template of G11 is well-formed; that of RESET_TAMPER, which is not given, plays no part in it. -/
theorem wellFormed_lightOn_generalKnowledge (tamper : Template) :
    ((Config.generalKnowledge tamper).tpl .lightOn).WellFormed .lightOn := by
  have hsame : (Config.generalKnowledge tamper).tpl .lightOn = (Config.generalKnowledge default).tpl .lightOn := rfl
  rw [hsame]
  decide

/-- A light-on command of G11 is the frame of a LIGHTING5 payload. -/
theorem build_lightOn_generalKnowledge (tamper : Template) (n : Nat) (b : Bytes3) (unit : Byte) :
    build .lightOn ((Config.generalKnowledge tamper).tpl .lightOn) n (some (b, unit)) =
      frameOf 0x14 (lightOnPayload n b unit).toBytes := by
  rw [build_wellFormed (wellFormed_lightOn_generalKnowledge tamper)]
  rfl

/-- The event of that payload, with the descriptions of G5 and G6. -/
theorem lighting5Event_lightOnPayload (tamper : Template) (n : Nat) (b : Bytes3) (unit : Byte) :
    lighting5Event (Config.generalKnowledge tamper) (lightOnPayload n b unit) =
      .lighting5 0x00 (some .lightwaveRFSiemens) (seqWire n) (idString b.toList) unit 0x01 (some .on) := rfl

/-- Settles O48: the command sends the frame of its LIGHTING5 payload, which comes back as that payload's event. -/
theorem lightOnLoopsBack : Obligations.LightOnLoopsBack := by
  intro tamper b unit h s hcfg hbuf hreq
  have hid := parseId_idString b
  refine ⟨frameOf 0x14 (lightOnPayload s.seq b unit).toBytes, idString b.toList, idString_bytes3 b, ?_, ?_, hid⟩
  · rw [exec, execCmdLon, lightCommand_accepted hid, command_spec, hcfg, build_lightOn_generalKnowledge]
    rfl
  · rw [exec_rxc_frame (frameOk_lightOnFrame ..) hbuf hreq, hcfg, frameOutputs_lighting5Frame,
      lighting5Event_lightOnPayload]
    rfl

end Sys2Proof.Machine
end

section
/-! # 60_exceptions.md: steps, deliveries and the stream error (R112, R113, R115, R125) -/

namespace Sys2Proof.Machine

/-! ## Which operation a step runs (R113, R125) -/

theorem step_of_input_eq_cons {s : State} {i : Instr} {rest : List Instr} (h : s.input = i :: rest) :
    step s = exec i { s with input := rest } := by
  rw [step, h]

theorem step_of_input_eq_nil {s : State} (h : s.input = []) : step s = .next s := by
  rw [step, h]

/-- An operation delivered to an idle engine is the next one run, with nothing waiting behind it (R112). -/
theorem step_deliver_of_idle {s : State} (h : s.input = []) (i : Instr) : step (s.deliver i) = exec i s := by
  have hqueue : (s.deliver i).input = [i] := by rw [State.deliver_input, h, List.nil_append]
  have hbehind : { s.deliver i with input := [] } = s := by rw [← h, State.deliver]
  rw [step_of_input_eq_cons hqueue, hbehind]

/-- A line that is no operation is refused for the reason its decoding gives. -/
theorem State.deliverLine_of_error {line : Text} {e : DecodeError} (h : decode line = .error e) (s : State) :
    s.deliverLine line = .error e := by
  rw [State.deliverLine, h]

/-- The operation of a table word goes before what waits (assumption 9). -/
theorem State.withFetchWord_of_decode {nbits w : Nat} {i : Instr} (h : decodeTableWord nbits w = some i) (s : State) :
    s.withFetchWord nbits w = { s with input := i :: s.input } := by
  rw [State.withFetchWord, h]

/-- Settles O6: each way an event comes to wait leaves its operation at the head of the queue. -/
theorem stepRunsTheOldestEvent : Obligations.StepRunsTheOldestEvent := by
  refine ⟨fun _ _ _ => step_of_input_eq_cons, fun _ => step_of_input_eq_nil, ?line, ?word, ?refused⟩
  case line =>
    intro s line i hidle hline
    exact ⟨s.deliver i, (s.deliverLine_eq_ok _ line).mpr ⟨i, hline, rfl⟩, step_deliver_of_idle hidle i⟩
  case word =>
    intro s nbits w i hword
    rw [State.withFetchWord_of_decode hword, step_input_cons]
  case refused => exact fun s _ _ hline => State.deliverLine_of_error hline s

/-! ## What follows a report (R115, R117) -/

/-- Every operation goes on, and does the same whatever was put out before it, to which it only appends. -/
theorem exec_anyOut (i : Instr) (s : State) :
    ∃ (t : State) (os : List Output), ∀ out, exec i { s with out := out } = .next { t with out := out ++ os } := by
  obtain ⟨buf', req', seq', os, hexec⟩ := exec_frame i s.buf s.req s.seq s.cfg
  exact ⟨⟨buf', req', seq', s.cfg, s.input, []⟩, os, hexec s.input⟩

/-- After an operation that only puts out a diagnostic, the next one does to the reassembly state what it would have
done without it, and hands over the same frames. -/
theorem execAll_after_diag {i j : Instr} {d : Diag} {s t u : State}
    (hreport : exec i s = .next { s with out := s.out ++ [.diag d] }) (ht : exec j s = .next t)
    (hu : execAll [i, j] s = .next u) : u.buf = t.buf ∧ u.req = t.req ∧ framesOf u.out = framesOf t.out := by
  obtain ⟨r, os, hexec⟩ := exec_anyOut j s
  rw [execAll_cons hreport, execAll_cons (hexec _), execAll] at hu
  obtain rfl := Host.Outcome.next.inj hu
  obtain rfl := Host.Outcome.next.inj ((hexec s.out).symm.trans ht)
  have hdiag : framesOf [.diag d] = [] := rfl
  exact ⟨rfl, rfl, by rw [framesOf_append, framesOf_append, framesOf_append, hdiag, List.append_nil]⟩

/-- `RXERR` only puts out its diagnostic (R115). -/
theorem exec_rxerr (e : OpaqueName) (s : State) :
    exec (.rxerr e) s = .next { s with out := s.out ++ [.diag (.streamError e)] } := rfl

/-- Settles O18: `RXERR` only reports, so the next byte continues the partial frame as if there had been no error. -/
theorem streamErrorLeavesTheState : Obligations.StreamErrorLeavesTheState :=
  fun e s => ⟨exec_rxerr e s, fun _ _ _ => execAll_after_diag (exec_rxerr e s)⟩

end Sys2Proof.Machine
end

section
/-! # 70_reset_and_hazards.md section 3: sequence numbers and the wire (R135)

An accepted command of any kind is `command` with the operands it carries (`exec_commandOf`), and its bytes depend on
the number it returns through the sequence byte alone; so two commands alias exactly when those bytes agree, which for a
number and its successor is at the wrap (`seqWire_seqNext_eq_iff`). -/

namespace Sys2Proof.Machine

/-! ## The sequence byte of a number and of its successor (R88, R89) -/

/-- The cycle of 257 numbers is one longer than that of the byte, so that only 256 shares its byte with the number after
it (R135, item 2). -/
theorem seqWire_seqNext_eq_iff {n : Nat} (h : n ≤ 256) : seqWire n = seqWire (seqNext n) ↔ n = 256 := by
  rw [seqNext_eq_mod h, seqWire, seqWire, ← BitVec.toNat_inj, BitVec.toNat_ofNat, BitVec.toNat_ofNat]
  omega

/-! ## An accepted command of any kind (R87, R97) -/

/-- The operands that a command of kind `k` carries: the identifier's bytes and the unit for a light command (R91). -/
def carriedOperands (k : CmdKind) (id : Text) (unit : Byte) : Option (Bytes3 × Byte) :=
  if k.isLight then (parseId id).map (·, unit) else none

theorem carriedOperands_of_plain {k : CmdKind} (hk : k.isLight = false) (id : Text) (unit : Byte) :
    carriedOperands k id unit = none := by
  simp [carriedOperands, hk]

theorem carriedOperands_of_light {k : CmdKind} (hk : k.isLight = true) {id : Text} {b : Bytes3}
    (hp : parseId id = some b) (unit : Byte) : carriedOperands k id unit = some (b, unit) := by
  simp [carriedOperands, hk, hp]

/-- Commands of one kind carry the same operands when they are given the same, if that kind takes any. -/
theorem carriedOperands_congr {k : CmdKind} {id id' : Text} {unit unit' : Byte}
    (h : k.isLight = true → id = id' ∧ unit = unit') : carriedOperands k id unit = carriedOperands k id' unit' := by
  cases hk : k.isLight with
  | false => rw [carriedOperands_of_plain hk, carriedOperands_of_plain hk]
  | true =>
    obtain ⟨rfl, rfl⟩ := h hk
    rfl

/-- A command that is not light is `command` of its kind, without operands. -/
theorem exec_commandOf_plain {k : CmdKind} (hk : k.isLight = false) (id : Text) (unit : Byte) (h : OpaqueName)
    (s : State) : exec (commandOf k id unit h) s = .next (command k none h s) := by
  cases k with
  | reset | getStatus | resetTamper => rfl
  | lightOn | lightOff => cases hk

theorem exec_commandOf_light {k : CmdKind} (hk : k.isLight = true) (id : Text) (unit : Byte) (h : OpaqueName)
    (s : State) : exec (commandOf k id unit h) s = .next (lightCommand k id unit h s) := by
  cases k with
  | reset | getStatus | resetTamper => cases hk
  | lightOn | lightOff => rfl

/-- An accepted command of any kind sends what is built from `SEQ` and its operands, returns `SEQ`, and leaves its
successor there (R97). -/
theorem exec_commandOf {k : CmdKind} {id : Text} (haccepted : k.isLight = true → ∃ b, parseId id = some b)
    (unit : Byte) (h : OpaqueName) (s : State) : exec (commandOf k id unit h) s = .next { s with
      seq := seqNext s.seq
      out := s.out ++ [.send (build k (s.cfg.tpl k) s.seq (carriedOperands k id unit)) h, .ret (.seq s.seq)] } := by
  cases hk : k.isLight with
  | false => rw [exec_commandOf_plain hk, carriedOperands_of_plain hk, command_spec]
  | true =>
    obtain ⟨b, hp⟩ := haccepted hk
    rw [exec_commandOf_light hk, lightCommand_accepted hp, carriedOperands_of_light hk hp, command_spec]

/-! ## What the allocated number does to the bytes (R91) -/

/-- Condition (3) of R55 for the sequence byte: it lies inside the image. -/
theorem seqOff_lt_length {k : CmdKind} {t : Template} (ht : t.WellFormed k) : t.seqOff < t.bytes.length := by
  obtain ⟨-, -, hinside, -⟩ := ht
  obtain ⟨-, hend⟩ := hinside (t.seqOff, 1) List.mem_cons_self
  exact hend

/-- The sequence byte of an accepted command stands at its template's offset. -/
theorem getElem?_build_seqOff {k : CmdKind} {t : Template} (ht : t.WellFormed k) {id : Text}
    (haccepted : k.isLight = true → ∃ b, parseId id = some b) (unit : Byte) (n : Nat) :
    (build k t n (carriedOperands k id unit))[t.seqOff]? = some (seqWire n) := by
  rw [seqWire_eq_mod]
  cases hk : k.isLight with
  | false => rw [carriedOperands_of_plain hk, build_plain ht, List.getElem?_set_self (seqOff_lt_length ht)]
  | true =>
    obtain ⟨b, hp⟩ := haccepted hk
    obtain ⟨io, uo, fo, flag, hf⟩ := exists_lightFields ht hk
    rw [carriedOperands_of_light hk hp, build_wellFormed ht]
    exact hf.getElem?_assemble ht List.mem_cons_self

/-- The allocated number enters the bytes as its sequence byte and in no other way. -/
theorem build_congr_seqWire {k : CmdKind} {t : Template} (ht : t.WellFormed k) {m n : Nat}
    (h : seqWire m = seqWire n) (light : Option (Bytes3 × Byte)) : build k t m light = build k t n light := by
  simp only [build_wellFormed ht, assemble, h]

/-- The bytes of two accepted commands with the same operands agree exactly when their sequence bytes do. -/
theorem build_eq_iff_seqWire_eq {k : CmdKind} {t : Template} (ht : t.WellFormed k) {id : Text}
    (haccepted : k.isLight = true → ∃ b, parseId id = some b) (unit : Byte) (m n : Nat) :
    build k t m (carriedOperands k id unit) = build k t n (carriedOperands k id unit) ↔ seqWire m = seqWire n := by
  constructor
  · intro hbytes
    have hbyte := congrArg (·[t.seqOff]?) hbytes
    simpa only [getElem?_build_seqOff ht haccepted, Option.some.injEq] using hbyte
  · exact fun h => build_congr_seqWire ht h _

/-! ## Two consecutive commands (R135) -/

/-- Settles O49: the two commands are built from `SEQ` and its successor, whose sequence bytes agree at 256 alone. -/
theorem wireByteAliasesOnlyAtTheWrap : Obligations.WireByteAliasesOnlyAtTheWrap := by
  intro k1 k2 id1 id2 unit1 unit2 h1 h2 s hcfg hseq haccepted1 haccepted2
  have ht := tpl_wellFormed hcfg
  have halias := seqWire_seqNext_eq_iff hseq
  refine ⟨build k1 (s.cfg.tpl k1) s.seq (carriedOperands k1 id1 unit1),
    build k2 (s.cfg.tpl k2) (seqNext s.seq) (carriedOperands k2 id2 unit2), s.seq, seqNext s.seq, _,
    (execAll_cons (exec_commandOf haccepted1 unit1 h1 s) _).trans
      (execAll_cons (exec_commandOf haccepted2 unit2 h2 _) _), ?out, rfl, rfl, ?wire, ?bytes⟩
  case out => rw [List.append_assoc]; rfl
  case wire =>
    refine ⟨seqWire s.seq, seqWire (seqNext s.seq), getElem?_build_seqOff (ht k1) haccepted1 unit1 s.seq,
      getElem?_build_seqOff (ht k2) haccepted2 unit2 _, halias, fun hwrap => ?_⟩
    rw [hwrap]
    rfl
  case bytes =>
    rintro rfl hsame
    rw [← carriedOperands_congr hsame, build_eq_iff_seqWire_eq (ht k1) haccepted1, halias]

end Sys2Proof.Machine
end

section
/-! # 30_encoding.md section 7: the trace line of an operation is read back (R58, decision D29)

A line is read in two stages. `scanLine` gives back the words and the quoted text that were written, since all of them
are plain words (`plainWord_of_mem_operandWords`); `operandsOf` reads each operand back from its words
(`operandsOf_operandWords`). -/

namespace Sys2Proof

/-! ## Operands, each written and read back -/

theorem plainWord_none : PlainWord "none".toList := by
  unfold PlainWord; decide

theorem plainWord_dash : PlainWord ['-'] := by
  unfold PlainWord; decide

theorem plainWord_wordOfTag (t : Option Byte) : PlainWord (wordOfTag t) := by
  cases t with
  | none => exact plainWord_none
  | some t => exact plainWord_wordOfByte t

theorem plainWord_of_mem_map_wordOfByte {bs : List Byte} {w : Text} (hw : w ∈ bs.map wordOfByte) : PlainWord w := by
  obtain ⟨b, -, rfl⟩ := List.mem_map.mp hw
  exact plainWord_wordOfByte b

theorem plainWord_wordOfErr {err : Option OpaqueName} (herr : ∀ e ∈ err, nameOk e = true) :
    PlainWord (wordOfErr err) := by
  cases err with
  | none => exact plainWord_dash
  | some e => exact plainWord_of_nameOk (herr e rfl)

/-- A tag is written with a leading digit, so it is not taken for the absent one. -/
theorem tagOfWord_wordOfTag (t : Option Byte) : tagOfWord (wordOfTag t) = some t := by
  cases t with
  | none => rfl
  | some t =>
    have hne : wordOfByte t ≠ "none".toList := by simp [wordOfByte]
    rw [wordOfTag, tagOfWord, if_neg hne, byteOfWord_wordOfByte, Option.map_some]

/-- A name is not the single `-`, so it is not taken for the absent error value. -/
theorem errOfWord_wordOfErr {err : Option OpaqueName} (herr : ∀ e ∈ err, nameOk e = true) :
    errOfWord (wordOfErr err) = err := by
  cases err with
  | none => rfl
  | some e =>
    have hne : e ≠ ['-'] := by
      rintro rfl
      exact absurd (herr _ rfl) (by decide)
    rw [wordOfErr, errOfWord, if_neg hne]

theorem unitOfWord_wordOfByte (b : Byte) : unitOfWord (wordOfByte b) = some b := by
  unfold unitOfWord
  rw [byteOfWord_wordOfByte]

theorem parseStatus_toBytes (p : StatusPayload) : parseStatus p.toBytes = some p := rfl
theorem parseResponse_toBytes (p : ResponsePayload) : parseResponse p.toBytes = some p := rfl
theorem parseLighting5_toBytes (p : Lighting5Payload) : parseLighting5 p.toBytes = some p := rfl
theorem parseSecurity1_toBytes (p : Security1Payload) : parseSecurity1 p.toBytes = some p := rfl
theorem parseElec2_toBytes (p : Elec2Payload) : parseElec2 p.toBytes = some p := rfl
theorem bytes4Of_toList (b : Bytes4) : bytes4Of b.toList = some b := rfl
theorem bytes6Of_toList (b : Bytes6) : bytes6Of b.toList = some b := rfl

/-! ## The operands of an operation -/

/-- Every name a well-formed operation carries is one the notation can write (assumption 7). -/
theorem nameOk_of_wellFormed {i : Instr} (hi : i.WellFormed = true) : ∀ n ∈ i.names, nameOk n = true := by
  simp only [Instr.WellFormed, Bool.and_eq_true, List.all_eq_true] at hi
  exact hi.2

theorem nameOk_of_txdone {h res : OpaqueName} {err : Option OpaqueName}
    (hi : (Instr.txdone h err res).WellFormed = true) :
    nameOk h = true ∧ (∀ e ∈ err, nameOk e = true) ∧ nameOk res = true := by
  have hnames := nameOk_of_wellFormed hi
  refine ⟨hnames h ?_, fun e he => hnames e ?_, hnames res ?_⟩ <;> simp_all [Instr.names]

theorem plainWord_of_mem_operandWords {i : Instr} (hi : i.WellFormed = true) :
    ∀ w ∈ operandWords i, PlainWord w := by
  have hnames := fun n hn => plainWord_of_nameOk (nameOk_of_wellFormed hi n hn)
  cases i
  case rxb b => simpa [operandWords] using plainWord_wordOfByte b
  case unhandled t => simpa [operandWords] using plainWord_wordOfTag t
  case rxerr | cmdReset | cmdStatus | cmdTamper => exact hnames
  case txdone h err res =>
    obtain ⟨hh, herr, hres⟩ := nameOk_of_txdone hi
    simpa [operandWords] using ⟨plainWord_of_nameOk hh, plainWord_wordOfErr herr, plainWord_of_nameOk hres⟩
  case rst | openLink | rxend | cmdLon | cmdLoff | alloc | parseId => simp [operandWords]
  all_goals exact fun w => plainWord_of_mem_map_wordOfByte

theorem plainWord_of_mem_wordsAfterQuote {i : Instr} (hi : i.WellFormed = true) :
    ∀ w ∈ wordsAfterQuote i, PlainWord w := by
  cases i
  case cmdLon id unit h | cmdLoff id unit h =>
    have hh := plainWord_of_nameOk (nameOk_of_wellFormed hi h List.mem_cons_self)
    simpa [wordsAfterQuote] using ⟨plainWord_wordOfByte unit, hh⟩
  all_goals simp [wordsAfterQuote]

/-- Only a light command has words after a quoted text, and it has that text. -/
theorem wordsAfterQuote_of_not_quoted {i : Instr} (hi : quotedOperand i = none) : wordsAfterQuote i = [] := by
  cases i
  case cmdLon | cmdLoff => cases hi
  all_goals rfl

/-- The operands of a well-formed operation are read back from their words. -/
theorem operandsOf_operandWords {i : Instr} (hi : i.WellFormed = true) :
    operandsOf i.op (operandWords i) (quotedOperand i) (wordsAfterQuote i) = some i := by
  cases i
  case txdone h err res =>
    obtain ⟨-, herr, -⟩ := nameOk_of_txdone hi
    simp only [operandsOf, Instr.op, operandWords, quotedOperand, wordsAfterQuote, errOfWord_wordOfErr herr]
  all_goals simp only [operandsOf, Instr.op, operandWords, quotedOperand, wordsAfterQuote, byteOfWord_wordOfByte,
    bytesOfWords_map, tagOfWord_wordOfTag, unitOfWord_wordOfByte, parseStatus_toBytes, parseResponse_toBytes,
    parseLighting5_toBytes, parseSecurity1_toBytes, parseElec2_toBytes, bytes4Of_toList, bytes6Of_toList,
    Option.map_some, Option.bind_some]

/-! ## The whole line -/

theorem scanLine_encode {i : Instr} (hi : i.WellFormed = true) : scanLine (encode i) = some (lineOf i) :=
  scanLine_renderLine (lineOf i)
    (List.forall_mem_cons.mpr ⟨plainWord_opName i.op, plainWord_of_mem_operandWords hi⟩)
    (plainWord_of_mem_wordsAfterQuote hi) wordsAfterQuote_of_not_quoted

/-- Settles O1: the line is cut up as it was written, and its operands are read back. -/
theorem traceLineRoundTrip : Obligations.TraceLineRoundTrip :=
  fun _ hi => decode_eq_ok_of_scanLine (scanLine_encode hi) (operandsOf_operandWords hi) hi

/-- Settles O5: every branch of the decoder but one is an error, and that one asks whether the operation is
well-formed. -/
theorem decodedLineIsWellFormed : Obligations.DecodedLineIsWellFormed := by
  intro line i h
  unfold decode at h
  repeat' split at h
  all_goals cases h
  assumption

end Sys2Proof
end

section
/-! # 42_dispatch_decoders.md sections 2 to 4: the answer of `DISPATCH`, field by field (R73 to R82, R53)

`DISPATCH` puts out one answer, a function of what the frame selects (`answerOf`). What a frame selects is said once in
each direction: `Selects` lists every case with the frames it has, and a long enough payload has each field at the
offset of its format (`parseStatus_getElem` and its like). -/

namespace Sys2Proof

/-! ## Payloads and their bytes (R43 to R47) -/

theorem StatusPayload.length_toBytes (p : StatusPayload) : p.toBytes.length = 5 + p.trailing.length := by
  simp [StatusPayload.toBytes]; omega

theorem ResponsePayload.length_toBytes (p : ResponsePayload) : p.toBytes.length = 3 + p.trailing.length := by
  simp [ResponsePayload.toBytes]; omega

theorem Lighting5Payload.length_toBytes (p : Lighting5Payload) : p.toBytes.length = 7 + p.trailing.length := by
  simp [Lighting5Payload.toBytes, Bytes3.toList]; omega

theorem Security1Payload.length_toBytes (p : Security1Payload) : p.toBytes.length = 7 + p.trailing.length := by
  simp [Security1Payload.toBytes, Bytes3.toList]; omega

theorem Elec2Payload.length_toBytes (p : Elec2Payload) : p.toBytes.length = 15 + p.trailing.length := by
  simp [Elec2Payload.toBytes, Bytes2.toList, Bytes4.toList, Bytes6.toList]; omega

/-! A payload is read as its fields and the bytes after them: no byte is dropped. -/

theorem toBytes_of_parseStatus {p : List Byte} {q : StatusPayload} (h : parseStatus p = some q) : q.toBytes = p := by
  unfold parseStatus at h
  split at h
  · obtain rfl := Option.some.inj h
    rfl
  · cases h

theorem toBytes_of_parseResponse {p : List Byte} {q : ResponsePayload} (h : parseResponse p = some q) :
    q.toBytes = p := by
  unfold parseResponse at h
  split at h
  · obtain rfl := Option.some.inj h
    rfl
  · cases h

theorem toBytes_of_parseLighting5 {p : List Byte} {q : Lighting5Payload} (h : parseLighting5 p = some q) :
    q.toBytes = p := by
  unfold parseLighting5 at h
  split at h
  · obtain rfl := Option.some.inj h
    rfl
  · cases h

theorem toBytes_of_parseSecurity1 {p : List Byte} {q : Security1Payload} (h : parseSecurity1 p = some q) :
    q.toBytes = p := by
  unfold parseSecurity1 at h
  split at h
  · obtain rfl := Option.some.inj h
    rfl
  · cases h

theorem toBytes_of_parseElec2 {p : List Byte} {q : Elec2Payload} (h : parseElec2 p = some q) : q.toBytes = p := by
  unfold parseElec2 at h
  split at h
  · obtain rfl := Option.some.inj h
    rfl
  · cases h

/-! A payload that is long enough has each field at its offset. -/

theorem parseStatus_getElem (p : List Byte) (h : 5 ≤ p.length) :
    parseStatus p = some ⟨p[0], p[1], p[2], p[3], p[4], p.drop 5⟩ :=
  match p, h with
  | _ :: _ :: _ :: _ :: _ :: _, _ => rfl

theorem parseResponse_getElem (p : List Byte) (h : 3 ≤ p.length) :
    parseResponse p = some ⟨p[0], p[1], p[2], p.drop 3⟩ :=
  match p, h with
  | _ :: _ :: _ :: _, _ => rfl

theorem parseLighting5_getElem (p : List Byte) (h : 7 ≤ p.length) :
    parseLighting5 p = some ⟨p[0], p[1], ⟨p[2], p[3], p[4]⟩, p[5], p[6], p.drop 7⟩ :=
  match p, h with
  | _ :: _ :: _ :: _ :: _ :: _ :: _ :: _, _ => rfl

theorem parseSecurity1_getElem (p : List Byte) (h : 7 ≤ p.length) :
    parseSecurity1 p = some ⟨p[0], p[1], ⟨p[2], p[3], p[4]⟩, p[5], p[6], p.drop 7⟩ :=
  match p, h with
  | _ :: _ :: _ :: _ :: _ :: _ :: _ :: _, _ => rfl

theorem parseElec2_getElem (p : List Byte) (h : 15 ≤ p.length) :
    parseElec2 p = some ⟨p[0], p[1], ⟨p[2], p[3]⟩, p[4], ⟨p[5], p[6], p[7], p[8]⟩,
      ⟨p[9], p[10], p[11], p[12], p[13], p[14]⟩, p.drop 15⟩ :=
  match p, h with
  | _ :: _ :: _ :: _ :: _ :: _ :: _ :: _ :: _ :: _ :: _ :: _ :: _ :: _ :: _ :: _, _ => rfl

/-! ## What a frame selects, case by case (R73 to R76) -/

/-- What each selection says of the frame: the frame of a decoder's payload, whatever its length byte; a tag that is
unknown; no tag; or a known tag with fewer payload bytes than its format needs. -/
inductive Selects : List Byte → FrameSel → Prop
  | status (l : Byte) (q : StatusPayload) : Selects (l :: 0x01 :: q.toBytes) (.status q)
  | response (l : Byte) (q : ResponsePayload) : Selects (l :: 0x02 :: q.toBytes) (.response q)
  | lighting5 (l : Byte) (q : Lighting5Payload) : Selects (l :: 0x14 :: q.toBytes) (.lighting5 q)
  | security1 (l : Byte) (q : Security1Payload) : Selects (l :: 0x20 :: q.toBytes) (.security1 q)
  | elec2 (l : Byte) (q : Elec2Payload) : Selects (l :: 0x5A :: q.toBytes) (.elec2 q)
  | unknown {t : Byte} (ht : isKnownTag t = false) (l : Byte) (p : List Byte) :
    Selects (l :: t :: p) (.unhandled (some t))
  | untagged {f : List Byte} (hf : f.length < 2) : Selects f (.unhandled none)
  | short {t : Byte} (ht : isKnownTag t = true) {p : List Byte} (hp : p.length < needOf t) (l : Byte) :
    Selects (l :: t :: p) (.short t p.length (needOf t))

theorem isKnownTag_iff {t : Byte} : isKnownTag t = true ↔ t ∈ [(0x01 : Byte), 0x02, 0x14, 0x20, 0x5A] := by
  simp [isKnownTag, or_assoc]

/-- Under a known tag: the parse of the payload decides between its decoder and the short case. -/
theorem Selects.selectOr {α : Type} {t : Byte} (ht : isKnownTag t = true) {l : Byte} {p : List Byte}
    {mk : α → FrameSel} {parsed : Option α} (hlong : needOf t ≤ p.length → ∃ q, parsed = some q)
    (hparsed : ∀ q, parsed = some q → Selects (l :: t :: p) (mk q)) :
    Selects (l :: t :: p) (selectOr t p mk parsed) := by
  cases parsed with
  | some q => exact hparsed q rfl
  | none =>
    have hp : ¬ needOf t ≤ p.length := fun h => nomatch (hlong h)
    exact .short ht (not_le.mp hp) l

theorem selects_selectFrame (f : List Byte) : Selects f (selectFrame f) := by
  match f with
  | [] | [_] => exact .untagged (by simp)
  | l :: t :: p =>
    cases ht : isKnownTag t with
    | false => rw [Machine.selectFrame_unknown_tag ht]; exact .unknown ht l p
    | true =>
      have hmem := isKnownTag_iff.mp ht
      simp only [List.mem_cons, List.not_mem_nil, or_false] at hmem
      obtain rfl | rfl | rfl | rfl | rfl := hmem
      · exact .selectOr ht (fun h => ⟨_, parseStatus_getElem p h⟩)
          fun q hq => toBytes_of_parseStatus hq ▸ .status l q
      · exact .selectOr ht (fun h => ⟨_, parseResponse_getElem p h⟩)
          fun q hq => toBytes_of_parseResponse hq ▸ .response l q
      · exact .selectOr ht (fun h => ⟨_, parseLighting5_getElem p h⟩)
          fun q hq => toBytes_of_parseLighting5 hq ▸ .lighting5 l q
      · exact .selectOr ht (fun h => ⟨_, parseSecurity1_getElem p h⟩)
          fun q hq => toBytes_of_parseSecurity1 hq ▸ .security1 l q
      · exact .selectOr ht (fun h => ⟨_, parseElec2_getElem p h⟩)
          fun q hq => toBytes_of_parseElec2 hq ▸ .elec2 l q

/-- The short case is the only one there is for a payload shorter than its format. -/
theorem selectFrame_of_length_lt {t : Byte} (ht : isKnownTag t = true) {p : List Byte} (hp : p.length < needOf t)
    (l : Byte) : selectFrame (l :: t :: p) = .short t p.length (needOf t) := by
  have hsel := selects_selectFrame (l :: t :: p)
  generalize selectFrame (l :: t :: p) = sel at hsel ⊢
  cases hsel
  case status q | response q | lighting5 q | security1 q | elec2 q =>
    exact absurd hp (by simp [q.length_toBytes, needOf])
  case unknown hunknown => exact absurd (ht.symm.trans hunknown) (by decide)
  case untagged hf => simp at hf
  case short => rfl

/-! What a payload under its tag selects when it is long enough. -/

theorem selectFrame_status_getElem (l : Byte) (p : List Byte) (h : 5 ≤ p.length) :
    selectFrame (l :: 0x01 :: p) = .status ⟨p[0], p[1], p[2], p[3], p[4], p.drop 5⟩ := by
  simp [selectFrame, parseStatus_getElem p h, selectOr]

theorem selectFrame_response_getElem (l : Byte) (p : List Byte) (h : 3 ≤ p.length) :
    selectFrame (l :: 0x02 :: p) = .response ⟨p[0], p[1], p[2], p.drop 3⟩ := by
  simp [selectFrame, parseResponse_getElem p h, selectOr]

theorem selectFrame_lighting5_getElem (l : Byte) (p : List Byte) (h : 7 ≤ p.length) :
    selectFrame (l :: 0x14 :: p) = .lighting5 ⟨p[0], p[1], ⟨p[2], p[3], p[4]⟩, p[5], p[6], p.drop 7⟩ := by
  simp [selectFrame, parseLighting5_getElem p h, selectOr]

theorem selectFrame_security1_getElem (l : Byte) (p : List Byte) (h : 7 ≤ p.length) :
    selectFrame (l :: 0x20 :: p) = .security1 ⟨p[0], p[1], ⟨p[2], p[3], p[4]⟩, p[5], p[6], p.drop 7⟩ := by
  simp [selectFrame, parseSecurity1_getElem p h, selectOr]

theorem selectFrame_elec2_getElem (l : Byte) (p : List Byte) (h : 15 ≤ p.length) :
    selectFrame (l :: 0x5A :: p) = .elec2 ⟨p[0], p[1], ⟨p[2], p[3]⟩, p[4], ⟨p[5], p[6], p[7], p[8]⟩,
      ⟨p[9], p[10], p[11], p[12], p[13], p[14]⟩, p.drop 15⟩ := by
  simp [selectFrame, parseElec2_getElem p h, selectOr]

end Sys2Proof

namespace Sys2Proof.Machine

/-! ## The one answer of `DISPATCH` (decision D33) -/

/-- What `DISPATCH` puts out under a configuration for what a frame selects. -/
def answerOf (c : Cfg) : FrameSel → Output
  | .status p => .event (statusEvent c p)
  | .response p => .event (responseEvent c p)
  | .lighting5 p => .event (lighting5Event c p)
  | .security1 p => .event (security1Event c p)
  | .elec2 p => .event (elec2Event c p)
  | .unhandled t => .diag (.unhandled t)
  | .short t got need => .diag (.shortPayload t got need)

theorem dispatchOutputs_eq_answerOf (c : Cfg) (f : List Byte) : dispatchOutputs c f = [answerOf c (selectFrame f)] := by
  rw [dispatchOutputs, dispatchFrame]
  cases selectFrame f <;> rfl

theorem exec_dispatch_of_selectFrame {f : List Byte} {sel : FrameSel} (h : selectFrame f = sel) (s : State) :
    exec (.dispatch f) s = .next { s with out := s.out ++ [answerOf s.cfg sel] } := by
  rw [exec_dispatch, dispatchOutputs_eq_answerOf, h]

/-- Settles O31: an answer is the event of a decoder, which is not `ready`, or one of the two diagnostics. -/
theorem dispatchPutsOutOneAnswer : Obligations.DispatchPutsOutOneAnswer := by
  intro f s
  refine ⟨answerOf s.cfg (selectFrame f), exec_dispatch_of_selectFrame rfl s, ?_⟩
  cases selectFrame f with
  | status | response | lighting5 | security1 | elec2 => exact .inl ⟨_, rfl, Event.noConfusion⟩
  | unhandled t => exact .inr (.inl ⟨t, rfl⟩)
  | short t got need => exact .inr (.inr ⟨t, got, need, rfl⟩)

/-- Settles O32: an unknown tag, or none, selects the default arm. -/
theorem unknownTagIsUnhandled : Obligations.UnknownTagIsUnhandled := by
  refine ⟨fun l t p s ht => ?_, fun l s => exec_dispatch_of_selectFrame (f := [l]) rfl s, fun _ _ => rfl⟩
  have hunknown : isKnownTag t = false := Bool.eq_false_iff.mpr (mt isKnownTag_iff.mp ht)
  exact exec_dispatch_of_selectFrame (selectFrame_unknown_tag hunknown l p) s

/-- The needs that the statements list are those of the formats (R43 to R47). -/
theorem needOf_of_mem {tn : Byte × Nat} (h : tn ∈ [((0x01 : Byte), 5), (0x02, 3), (0x14, 7), (0x20, 7), (0x5A, 15)]) :
    isKnownTag tn.1 = true ∧ needOf tn.1 = tn.2 := by
  revert h; revert tn; decide

/-- Settles O33: a short payload under a known tag selects the short case. -/
theorem shortPayloadIsReported : Obligations.ShortPayloadIsReported := by
  intro l tn p s htn hp
  obtain ⟨hknown, hneed⟩ := needOf_of_mem htn
  rw [← hneed] at hp ⊢
  exact exec_dispatch_of_selectFrame (selectFrame_of_length_lt hknown hp l) s

/-! ## The five events (R77 to R82) -/

/-- Settles O34: the STATUS event of the fields at their offsets. -/
theorem statusFrameIsDecoded : Obligations.StatusFrameIsDecoded :=
  fun l p s h => exec_dispatch_of_selectFrame (selectFrame_status_getElem l p h) s

/-- Settles O35: the RESPONSE event of the fields at their offsets. -/
theorem responseFrameIsDecoded : Obligations.ResponseFrameIsDecoded :=
  fun l p s h => exec_dispatch_of_selectFrame (selectFrame_response_getElem l p h) s

/-- Settles O36: the LIGHTING5 event of the fields at their offsets, the identifier as `id_string` writes it. -/
theorem lighting5FrameIsDecoded : Obligations.Lighting5FrameIsDecoded :=
  fun l p s h => exec_dispatch_of_selectFrame (selectFrame_lighting5_getElem l p h) s

/-- Settles O37: the SECURITY1 event of the fields at their offsets, the identifier as `id_string` writes it. -/
theorem security1FrameIsDecoded : Obligations.Security1FrameIsDecoded :=
  fun l p s h => exec_dispatch_of_selectFrame (selectFrame_security1_getElem l p h) s

/-- Settles O38: the ELEC2 event of the fields at their offsets, its readings as words of joined bytes. -/
theorem elec2FrameIsDecoded : Obligations.Elec2FrameIsDecoded := by
  intro l p s h
  rw [exec_dispatch_of_selectFrame (selectFrame_elec2_getElem l p h), answerOf, elec2Event, uint32_eq_toNat_append,
    uint48_eq_toNat_append]
  rfl

/-- Settles O39: each decoder emits its event and does nothing else. -/
theorem decodersEmitTheirEvents : Obligations.DecodersEmitTheirEvents :=
  ⟨fun _ _ => rfl, fun _ _ => rfl, fun _ _ => rfl, fun _ _ => rfl, fun _ _ => rfl⟩

/-! ## Trailing bytes (R53, decision D9) -/

/-- A long enough payload gives the answer that its format's own bytes give alone. -/
theorem answerOf_selectFrame_take {tag : Byte} {need : Nat} {p : List Byte}
    (htag : (tag, need) ∈ [((0x01 : Byte), 5), (0x02, 3), (0x14, 7), (0x20, 7), (0x5A, 15)])
    (hp : need ≤ p.length) (c : Cfg) (l : Byte) :
    answerOf c (selectFrame (l :: tag :: p.take need)) = answerOf c (selectFrame (l :: tag :: p)) := by
  have htake : need ≤ (p.take need).length := by simp [hp]
  simp only [List.mem_cons, Prod.mk.injEq, List.not_mem_nil, or_false] at htag
  obtain ⟨rfl, rfl⟩ | ⟨rfl, rfl⟩ | ⟨rfl, rfl⟩ | ⟨rfl, rfl⟩ | ⟨rfl, rfl⟩ := htag
  · rw [selectFrame_status_getElem l _ htake, selectFrame_status_getElem l _ hp]
    simp only [answerOf, statusEvent, List.getElem_take]
  · rw [selectFrame_response_getElem l _ htake, selectFrame_response_getElem l _ hp]
    simp only [answerOf, responseEvent, List.getElem_take]
  · rw [selectFrame_lighting5_getElem l _ htake, selectFrame_lighting5_getElem l _ hp]
    simp only [answerOf, lighting5Event, List.getElem_take]
  · rw [selectFrame_security1_getElem l _ htake, selectFrame_security1_getElem l _ hp]
    simp only [answerOf, security1Event, List.getElem_take]
  · rw [selectFrame_elec2_getElem l _ htake, selectFrame_elec2_getElem l _ hp]
    simp only [answerOf, elec2Event, List.getElem_take]

/-- Settles O41: both payloads answer as their first bytes, which are the same. -/
theorem trailingBytesAreIgnored : Obligations.TrailingBytesAreIgnored := by
  intro c l l' tn p q htn hp hq htake
  rw [dispatchOutputs_eq_answerOf, dispatchOutputs_eq_answerOf, ← answerOf_selectFrame_take htn hp,
    ← answerOf_selectFrame_take htn hq, htake, selectFrame_length_byte l l']

end Sys2Proof.Machine
end

section
/-! # 30_encoding.md sections 1 and 2: the frames of the decoders (R41 to R47) -/

namespace Sys2Proof.Machine

theorem operandsOk_of_wellFormed {i : Instr} (hi : i.WellFormed = true) : i.operandsOk = true :=
  (Bool.and_eq_true_iff.mp hi).1

theorem wellFormed_of_operandsOk {i : Instr} (hi : i.operandsOk = true) (hnames : i.names = []) :
    i.WellFormed = true := by
  rw [Instr.WellFormed, hi, hnames]
  rfl

/-! ## From the operation to its frame -/

/-- Well-formedness keeps a decoder's payload within the 254 bytes that a length byte can count (R41, R42). -/
theorem frameOk_encodeFrame {i : Instr} {f : List Byte} (hi : i.WellFormed = true) (hf : encodeFrame i = some f) :
    frameOk f = true := by
  have hoperands := operandsOk_of_wellFormed hi
  cases i
  case decStatus p | decResponse p | decLighting5 p | decSecurity1 p | decElec2 p =>
    rw [← Option.some.inj hf]
    exact frameOk_frameOf _ _ (p.length_toBytes.trans_le (of_decide_eq_true hoperands))
  case unhandled t =>
    cases t with
    | none => rw [← Option.some.inj hf]; rfl
    | some t => rw [← Option.some.inj hf]; exact frameOk_frameOf t [] (Nat.zero_le _)
  all_goals cases hf

/-- Settles O2: the frame selects the operation whose frame it is. -/
theorem packetFrameRoundTrip : Obligations.PacketFrameRoundTrip := by
  intro i f hi hf
  have hok := frameOk_encodeFrame hi hf
  exact ⟨hok, by rw [decodeFrame_eq_operationOf hok, operationOf_encodeFrame hi hf]⟩

/-! ## From the frame to its operation -/

/-- What `decodeFrame` answers is the selected operation of a frame. -/
theorem frameOk_of_decodeFrame {f : List Byte} {i : Instr} (h : decodeFrame f = some i) :
    frameOk f = true ∧ operationOf (selectFrame f) = some i := by
  have hok : frameOk f = true := by
    by_contra hbad
    rw [decodeFrame, if_neg hbad] at h
    cases h
  exact ⟨hok, by rw [← decodeFrame_eq_operationOf hok, h]⟩

/-- A frame with a tag is the frame of its tag and payload, which fits: the length byte is determined (R41). -/
theorem eq_frameOf_of_frameOk {l t : Byte} {p : List Byte} (h : frameOk (l :: t :: p) = true) :
    frameOf t p = l :: t :: p ∧ p.length ≤ 254 := by
  have hlen : p.length + 1 = l.toNat := frameOk_cons.mp h
  have hl := l.isLt
  refine ⟨?_, by omega⟩
  rw [frameOf, hlen, BitVec.ofNat_toNat, BitVec.setWidth_eq]

/-- Settles O3: by what the frame selects; the payload is the decoder's whole payload and the length byte follows from
it. -/
theorem decodedFrameKeepsEveryByte : Obligations.DecodedFrameKeepsEveryByte := by
  intro f i h
  obtain ⟨hok, hop⟩ := frameOk_of_decodeFrame h
  have hsel := selects_selectFrame f
  generalize selectFrame f = sel at hsel hop
  cases hsel
  case status q | response q | lighting5 q | security1 q | elec2 q =>
    obtain rfl := Option.some.inj hop
    obtain ⟨hframe, hlen⟩ := eq_frameOf_of_frameOk hok
    rw [q.length_toBytes] at hlen
    exact ⟨wellFormed_of_operandsOk (decide_eq_true hlen) rfl, fun _ => congrArg some hframe⟩
  case unknown t ht l p =>
    obtain rfl := Option.some.inj hop
    exact ⟨wellFormed_of_operandsOk (by simp [Instr.operandsOk, ht]) rfl, fun hne => absurd rfl (hne _)⟩
  case untagged =>
    obtain rfl := Option.some.inj hop
    exact ⟨rfl, fun hne => absurd rfl (hne _)⟩
  case short => cases hop

end Sys2Proof.Machine
end

section
/-! # 30_encoding.md section 7 and 43_commands.md: the identifier grammar and what a command sends (R59, R90, R91) -/

namespace Sys2Proof.Machine

/-! ## The grammar (R59, decision D19) -/

/-- Both rows of digits are read in order of value. -/
theorem hexVal_of_isHexDigit {c : Char} {v : Nat} (h : IsHexDigit c v) : hexVal c = some v := by
  have hupper : ∀ n < 16, ("0123456789ABCDEF".toList[n]?).bind hexVal = some n := by decide
  have hlower : ∀ n < 16, ("0123456789abcdef".toList[n]?).bind hexVal = some n := by decide
  obtain ⟨hv, hc | hc⟩ := h
  · rw [← hupper v hv, hc, Option.bind_some]
  · rw [← hlower v hv, hc, Option.bind_some]

/-- A digit below the lower-case letters is its own upper case; the others are the six lower-case letters. -/
theorem isHexDigit_of_hexVal {c : Char} {v : Nat} (h : hexVal c = some v) : IsHexDigit c v := by
  obtain ⟨hv, hdigit⟩ := hexDigit_of_hexVal h
  refine ⟨hv, ?_⟩
  by_cases hc : c.toNat < 97
  · left
    rw [getElem?_upperDigits hv, hdigit, toUpper_of_toNat_lt hc]
  · right
    have hlower : ∀ n < 16, 10 ≤ n → "0123456789abcdef".toList[n]? = some (Char.ofNat (n + 87)) := by decide
    have hcode : c.toNat = v + 87 ∧ 10 ≤ v := by
      simp only [hexVal] at h
      split_ifs at h <;> obtain rfl := Option.some.inj h <;> omega
    rw [hlower v hv hcode.2, ← hcode.1, Char.ofNat_toNat]

theorem hexVal_eq_some_iff {c : Char} {v : Nat} : hexVal c = some v ↔ IsHexDigit c v :=
  ⟨isHexDigit_of_hexVal, hexVal_of_isHexDigit⟩

theorem hexPair_eq_some_iff_isHexPair {hi lo : Char} {b : Byte} : hexPair hi lo = some b ↔ IsHexPair hi lo b := by
  simp only [hexPair_eq_some_iff, hexVal_eq_some_iff, IsHexPair]
  refine exists_congr fun h => exists_congr fun l => and_congr_right fun hh => and_congr_right fun hl => ?_
  obtain ⟨hh16, -⟩ := hh
  obtain ⟨hl16, -⟩ := hl
  have hval : (BitVec.ofNat 8 (h * 16 + l)).toNat = h * 16 + l := Nat.mod_eq_of_lt (by omega)
  rw [← BitVec.toNat_inj, hval]

/-- What is left of a text after the optional `0x`, for a rest that does not begin with `0x` itself. -/
theorem afterPrefix_eq_iff {t u : Text} (hu : ∀ r, u ≠ '0' :: 'x' :: r) :
    afterPrefix t = u ↔ ∃ pre, (pre = [] ∨ pre = ['0', 'x']) ∧ t = pre ++ u := by
  constructor
  · rintro rfl
    unfold afterPrefix
    split
    · next r => exact ⟨['0', 'x'], .inr rfl, rfl⟩
    · exact ⟨[], .inl rfl, rfl⟩
  · rintro ⟨pre, rfl | rfl, rfl⟩
    · unfold afterPrefix
      split
      · next r => exact absurd rfl (hu r)
      · rfl
    · rfl

/-- The letter `x` is no digit, so three pairs of digits do not begin with `0x`. -/
theorem digits_ne_prefix {h0 l0 : Char} {b : Byte} (hp : IsHexPair h0 l0 b) (rest r : Text) :
    h0 :: l0 :: rest ≠ '0' :: 'x' :: r := by
  intro heq
  obtain ⟨-, heq⟩ := List.cons.inj heq
  obtain ⟨rfl, -⟩ := List.cons.inj heq
  obtain ⟨-, l, -, hl, -⟩ := hp
  exact nomatch hexVal_of_isHexDigit hl

/-- Settles O50: the parser's two stages, the optional `0x` and the three pairs, are the grammar's. -/
theorem parseIdFollowsTheGrammar : Obligations.ParseIdFollowsTheGrammar := by
  intro t b
  simp only [parseId_eq_some_iff, hexPair_eq_some_iff_isHexPair]
  constructor
  · rintro ⟨h0, l0, h1, l1, h2, l2, ht, hp0, hp1, hp2⟩
    obtain ⟨pre, hpre, ht⟩ := (afterPrefix_eq_iff (digits_ne_prefix hp0 _)).mp ht
    exact ⟨pre, h0, l0, h1, l1, h2, l2, hpre, ht, hp0, hp1, hp2⟩
  · rintro ⟨pre, h0, l0, h1, l1, h2, l2, hpre, ht, hp0, hp1, hp2⟩
    have hafter := (afterPrefix_eq_iff (digits_ne_prefix hp0 _)).mpr ⟨pre, hpre, ht⟩
    exact ⟨h0, l0, h1, l1, h2, l2, hafter, hp0, hp1, hp2⟩

theorem parseId_eq_none_of_malformed {t : Text} (h : ¬ ∃ b, IsIdText t b) : parseId t = none :=
  Option.eq_none_iff_forall_ne_some.mpr fun b hb => h ⟨b, (parseIdFollowsTheGrammar t b).mp hb⟩

/-- Settles O51: `PARSEID` gives back what the parse answers. -/
theorem parseIdAnswers : Obligations.ParseIdAnswers := by
  refine fun t s => ⟨fun b hb => ?_, fun hbad => ?_⟩
  · rw [exec, execParseId, (parseIdFollowsTheGrammar t b).mpr hb]
    rfl
  · rw [exec, execParseId, parseId_eq_none_of_malformed hbad]
    rfl

/-- Settles O46: the parse comes first, and its refusal is all that a light command answers (decision D20). -/
theorem malformedIdentifierIsRefused : Obligations.MalformedIdentifierIsRefused := by
  intro id unit h s hbad
  have hp := parseId_eq_none_of_malformed hbad
  rw [exec, exec, execCmdLon, execCmdLoff, lightCommand_refused hp, lightCommand_refused hp]
  exact ⟨rfl, rfl⟩

/-! ## What a command sends is a frame (R41, R91, decision D18) -/

/-- Condition (3) of R55: the sequence byte is not among the first two. -/
theorem two_le_seqOff {k : CmdKind} {t : Template} (ht : t.WellFormed k) : 2 ≤ t.seqOff := by
  obtain ⟨-, -, hinside, -⟩ := ht
  exact (hinside (t.seqOff, 1) List.mem_cons_self).1

/-- A kind that is not light inserts the sequence byte alone, whatever operands it is given. -/
theorem assemble_of_not_light {k : CmdKind} {t : Template} (ht : t.WellFormed k) (hk : k.isLight = false) (n : Nat)
    (light : Option (Bytes3 × Byte)) : assemble t n light = t.bytes.set t.seqOff (seqWire n) := by
  obtain ⟨-, -, -, -, hid, -⟩ := ht
  have hid : t.idOff = none := by simpa [hk] using hid
  simp [assemble, hid]

/-- The length byte and the class byte of a command are its template's. -/
theorem getElem?_build_of_lt_two {k : CmdKind} {t : Template} (ht : t.WellFormed k) (n : Nat)
    (light : Option (Bytes3 × Byte)) {j : Nat} (hj : j < 2) : (build k t n light)[j]? = t.bytes[j]? := by
  have hseq := two_le_seqOff ht
  have honly : ∀ v : Byte, (t.bytes.set t.seqOff v)[j]? = t.bytes[j]? :=
    fun v => List.getElem?_set_ne (by omega)
  cases hk : k.isLight with
  | false => rw [build_wellFormed ht, assemble_of_not_light ht hk, honly]
  | true =>
    cases light with
    | none => rw [build_plain ht, honly]
    | some operands =>
      obtain ⟨b, unit⟩ := operands
      obtain ⟨io, uo, fo, flag, hf⟩ := exists_lightFields ht hk
      have ⟨_, _, hinside, _⟩ := ht
      rw [hf.fields] at hinside
      simp only [List.mem_cons, List.not_mem_nil, or_false, forall_eq_or_imp, forall_eq] at hinside
      rw [build_wellFormed ht, hf.getElem?_assemble_of_notMem]
      simp only [List.mem_cons, List.not_mem_nil, or_false]
      omega

/-- Condition (2) of R55: the length byte counts the bytes after it. -/
theorem frameOk_build {k : CmdKind} {t : Template} (ht : t.WellFormed k) (n : Nat)
    (light : Option (Bytes3 × Byte)) : frameOk (build k t n light) = true := by
  have hlength := build_length k t n light
  have hfirst := getElem?_build_of_lt_two ht n light (j := 0) (by decide)
  obtain ⟨⟨hmin, hmax⟩, hhead, -⟩ := ht
  rw [← List.head?_eq_getElem?, ← List.head?_eq_getElem?, hhead] at hfirst
  obtain ⟨rest, hbytes⟩ := List.head?_eq_some_iff.mp hfirst
  rw [hbytes, List.length_cons] at hlength
  rw [hbytes, frameOk_cons, BitVec.toNat_ofNat, Nat.mod_eq_of_lt (by omega)]
  omega

/-- Settles O47: a frame received whole is dispatched whole. -/
theorem sentCommandIsOneFrame : Obligations.SentCommandIsOneFrame := by
  intro k n light s hcfg hbuf hreq
  have ht := tpl_wellFormed hcfg k
  exact ⟨exec_rxc_frame (frameOk_build ht n light) hbuf hreq, getElem?_build_of_lt_two ht n light (by decide)⟩

end Sys2Proof.Machine
end

section
/-! # 10_state.md sections 1 and 4, 60_exceptions.md: the two halves of the state, and runs that go on (R14, R109, R126)

What an operation reads and writes is said by what may vary around it: a receive operation runs the same whatever `SEQ`,
queue and outputs there are (`exec_receives_frame`), an allocating one whatever `BUF` and `REQ`
(`exec_allocates_frame`), and any other operation but `RST` changes neither half (`exec_of_neither`). -/

namespace Sys2Proof.Machine

/-! ## Every operation and every step (R8, R109, R126) -/

/-- Settles O10: `exec_frame` gives the next state. -/
theorem everyOperationGoesOn : Obligations.EveryOperationGoesOn := by
  intro i s
  obtain ⟨t, os, hexec⟩ := exec_anyOut i s
  exact ⟨_, hexec s.out⟩

/-- Whatever an operation does, it leaves the configuration and what waits, and only appends to the outputs. -/
theorem exec_leaves {i : Instr} {s t : State} (hexec : exec i s = .next t) :
    (∃ os, t.out = s.out ++ os) ∧ t.cfg = s.cfg ∧ t.input = s.input := by
  obtain ⟨buf', req', seq', os, hframe⟩ := exec_frame i s.buf s.req s.seq s.cfg
  obtain rfl := Host.Outcome.next.inj ((hframe s.input s.out).symm.trans hexec)
  exact ⟨⟨os, rfl⟩, rfl, rfl⟩

/-- Settles O9: an idle step does nothing, and any other runs one operation on the rest of the queue. -/
theorem stepOnlyAppendsOutputs : Obligations.StepOnlyAppendsOutputs := by
  intro s t hstep
  cases hinput : s.input with
  | nil =>
    obtain rfl := Host.Outcome.next.inj ((step_of_input_eq_nil hinput).symm.trans hstep)
    exact ⟨⟨[], (List.append_nil _).symm⟩, rfl, hinput⟩
  | cons i rest =>
    rw [step_of_input_eq_cons hinput] at hstep
    exact exec_leaves hstep

theorem step_goes_on (s : State) : ∃ t, step s = .next t := by
  cases hinput : s.input with
  | nil => exact ⟨s, step_of_input_eq_nil hinput⟩
  | cons i rest =>
    rw [step_of_input_eq_cons hinput]
    exact everyOperationGoesOn i _

/-- Each of `n` steps goes on, takes the oldest event and leaves the configuration. -/
theorem core_run_goes_on (n : Nat) (s : State) :
    ∃ t : State, Sys2Proof.core.run n s = .next t ∧ t.input = s.input.drop n ∧ t.cfg = s.cfg := by
  induction n generalizing s with
  | zero => exact ⟨s, rfl, rfl, rfl⟩
  | succ n ih =>
    obtain ⟨u, hstep⟩ := step_goes_on s
    obtain ⟨-, hcfg, hinput⟩ := stepOnlyAppendsOutputs s u hstep
    obtain ⟨t, hrun, htinput, htcfg⟩ := ih u
    refine ⟨t, (core_run_succ Sys2Proof.core hstep n).trans hrun, ?_, htcfg.trans hcfg⟩
    rw [htinput, hinput, List.drop_tail]

/-- Settles O11: the events still waiting are some of those that waited before. -/
theorem deliverableRunNeverStops : Obligations.DeliverableRunNeverStops := by
  intro n s
  obtain ⟨t, hrun, hinput, hcfg⟩ := core_run_goes_on n s
  exact ⟨t, hrun, hinput, hcfg, fun hs i hi => hs i (List.mem_of_mem_drop (hinput ▸ hi))⟩

/-! ## The two halves (R14) -/

/-- A receive operation reads the receive state and the configuration alone, writes the receive state, and puts out the
same in any surroundings. -/
theorem exec_receives_frame {i : Instr} (hi : receives i = true) (buf : List Byte) (req : Nat) (cfg : Cfg) :
    ∃ buf' req' os, ∀ (seq : Nat) (input : List Instr) (out : List Output),
      exec i ⟨buf, req, seq, cfg, input, out⟩ = .next ⟨buf', req', seq, cfg, input, out ++ os⟩ := by
  cases i
  case rxb b =>
    by_cases h : reqAfter (buf ++ [b]) req ≤ (buf ++ [b]).length
    · exact ⟨(buf ++ [b]).drop (reqAfter (buf ++ [b]) req), 0,
        frameOutputs cfg ((buf ++ [b]).take (reqAfter (buf ++ [b]) req)), fun _ _ _ => by
          rw [exec, execRxb_eq, if_pos h]⟩
    · exact ⟨buf ++ [b], reqAfter (buf ++ [b]) req, [], fun _ _ _ => by
        rw [exec, execRxb_eq, if_neg h, List.append_nil]⟩
  case rxc c =>
    cases c with
    | nil => exact ⟨buf, req, [], fun _ _ _ => by rw [exec, execRxc, List.append_nil]⟩
    | cons b bs =>
      obtain ⟨buf', req', os, hdrain⟩ := drain_frame (buf ++ b :: bs).length (buf ++ b :: bs) req cfg
      exact ⟨buf', req', os, fun seq input out => by rw [exec, execRxc_cons, hdrain]⟩
  all_goals cases hi

theorem command_frame (k : CmdKind) (light : Option (Bytes3 × Byte)) (h : OpaqueName) (seq : Nat) (cfg : Cfg) :
    ∃ seq' os, ∀ (buf : List Byte) (req : Nat) (input : List Instr) (out : List Output),
      (.next (command k light h ⟨buf, req, seq, cfg, input, out⟩) : Result) =
        .next ⟨buf, req, seq', cfg, input, out ++ os⟩ :=
  ⟨seqNext seq, [.send (build k (cfg.tpl k) seq light) h, .ret (.seq seq)],
    fun _ _ _ _ => congrArg _ (command_spec k light h _)⟩

theorem lightCommand_frame (k : CmdKind) (id : Text) (unit : Byte) (h : OpaqueName) (seq : Nat) (cfg : Cfg) :
    ∃ seq' os, ∀ (buf : List Byte) (req : Nat) (input : List Instr) (out : List Output),
      (.next (lightCommand k id unit h ⟨buf, req, seq, cfg, input, out⟩) : Result) =
        .next ⟨buf, req, seq', cfg, input, out ++ os⟩ := by
  cases hp : parseId id with
  | none => exact ⟨seq, [.ret .parseError], fun _ _ _ _ => congrArg _ (lightCommand_refused hp k unit h _)⟩
  | some b =>
    simp only [lightCommand_accepted hp]
    exact command_frame k (some (b, unit)) h seq cfg

/-- An allocating operation reads `SEQ` and the configuration alone, writes `SEQ`, and puts out the same in any
surroundings. -/
theorem exec_allocates_frame {i : Instr} (hi : allocates i = true) (seq : Nat) (cfg : Cfg) :
    ∃ seq' os, ∀ (buf : List Byte) (req : Nat) (input : List Instr) (out : List Output),
      exec i ⟨buf, req, seq, cfg, input, out⟩ = .next ⟨buf, req, seq', cfg, input, out ++ os⟩ := by
  cases i
  case cmdReset h | cmdStatus h | cmdTamper h => exact command_frame _ none h seq cfg
  case cmdLon id unit h | cmdLoff id unit h => exact lightCommand_frame _ id unit h seq cfg
  case alloc => exact ⟨seqNext seq, [.ret (.seq seq)], fun _ _ _ _ => exec_alloc _⟩
  all_goals cases hi

/-- An operation that neither receives nor allocates, and is not `RST`, only puts something out. -/
theorem exec_of_neither {i : Instr} (hrst : i ≠ .rst) (hreceives : receives i = false)
    (hallocates : allocates i = false) (s : State) : ∃ os, exec i s = .next { s with out := s.out ++ os } := by
  cases i
  case rst => exact absurd rfl hrst
  case rxb | rxc => cases hreceives
  case cmdReset | cmdStatus | cmdTamper | cmdLon | cmdLoff | alloc => cases hallocates
  case dispatch f => exact ⟨_, exec_dispatch f s⟩
  all_goals exact ⟨_, rfl⟩

/-- Settles O13: a receive operation leaves `SEQ`, an allocating one leaves the receive state, and the others both. -/
theorem halvesOfTheStateAreDisjoint : Obligations.HalvesOfTheStateAreDisjoint := by
  intro i s t hexec
  obtain ⟨-, hcfg, hinput⟩ := exec_leaves hexec
  refine ⟨fun hreceives hrst => ?_, fun hallocates hrst => ?_, hcfg, hinput⟩
  · obtain ⟨seq', os, hspec, -⟩ := exec_of_not_receives hrst hreceives s
    obtain rfl := Host.Outcome.next.inj (hspec.symm.trans hexec)
    exact ⟨rfl, rfl, fun _ => rfl⟩
  · cases hreceives : receives i with
    | true =>
      obtain ⟨buf', req', os, hframe⟩ := exec_receives_frame hreceives s.buf s.req s.cfg
      obtain rfl := Host.Outcome.next.inj ((hframe s.seq s.input s.out).symm.trans hexec)
      rfl
    | false =>
      obtain ⟨os, hspec⟩ := exec_of_neither hrst hreceives hallocates s
      obtain rfl := Host.Outcome.next.inj (hspec.symm.trans hexec)
      rfl

/-- Settles O14: each kind of operation runs the same in the surroundings of either state. -/
theorem eachHalfIgnoresTheOther : Obligations.EachHalfIgnoresTheOther := by
  constructor
  · intro i s u s' u' hi hbuf hreq hcfg hs hu
    obtain ⟨buf', req', os, hframe⟩ := exec_receives_frame hi s.buf s.req s.cfg
    obtain rfl := Host.Outcome.next.inj ((hframe s.seq s.input s.out).symm.trans hs)
    rw [hbuf, hreq, hcfg] at hframe
    obtain rfl := Host.Outcome.next.inj ((hframe u.seq u.input u.out).symm.trans hu)
    exact ⟨rfl, rfl, os, rfl, rfl⟩
  · intro i s u s' u' hi hseq hcfg hs hu
    obtain ⟨seq', os, hframe⟩ := exec_allocates_frame hi s.seq s.cfg
    obtain rfl := Host.Outcome.next.inj ((hframe s.buf s.req s.input s.out).symm.trans hs)
    rw [hseq, hcfg] at hframe
    obtain rfl := Host.Outcome.next.inj ((hframe u.buf u.req u.input u.out).symm.trans hu)
    exact ⟨rfl, os, rfl, rfl⟩

end Sys2Proof.Machine
end

section
/-! # 10_state.md section 6, 70_reset_and_hazards.md, and the rest: reset, reports, allocation (R27, R88, R114, R116) -/

namespace Sys2Proof.Machine

/-- Settles O15: the fields of the reset state, whatever the free configuration is (assumption 1). -/
theorem resetStateIsEmpty : Obligations.ResetStateIsEmpty := ⟨rfl, rfl, rfl, rfl, rfl, rfl, rfl⟩

/-- Settles O16: what is removed from the buffer is all of it. -/
theorem rstRestoresTheCreationState : Obligations.RstRestoresTheCreationState := by
  intro s
  simp [exec, execRst, State.memRemove, State.setReq, State.setSeq]

theorem exec_openLink (s : State) : exec .openLink s = .next { s with out := s.out ++ [.event .ready] } := rfl

/-- Settles O17: `OPEN` only emits, so the second one emits as the first did. -/
theorem openEmitsReady : Obligations.OpenEmitsReady := by
  refine fun s => ⟨exec_openLink s, ?_⟩
  rw [execAll_cons (exec_openLink s), execAll_cons (exec_openLink _), execAll, List.append_assoc]
  rfl

theorem exec_rxend (s : State) : exec .rxend s = .next { s with out := s.out ++ [.diag .streamEnd] } := rfl

/-- Settles O19: `RXEND` only reports, so a later byte continues the partial frame (decision D23). -/
theorem streamEndLeavesThePartialFrame : Obligations.StreamEndLeavesThePartialFrame :=
  fun s => ⟨exec_rxend s, fun _ _ _ => execAll_after_diag (exec_rxend s)⟩

/-- Settles O42: the successor of R88 is the one the statement writes out. -/
theorem allocReturnsAndAdvances : Obligations.AllocReturnsAndAdvances := exec_alloc

/-- Settles O58: the two decoders differ in the byte of weight 1 alone. -/
theorem legacyDiffersByTheLastBytes : Obligations.LegacyDiffersByTheLastBytes := by
  intro b
  have hdiff : uint48Legacy b + b.b5.toNat = uint48Corrected b + b.b4.toNat := by
    rw [uint48Legacy, uint48Corrected]
    omega
  refine ⟨hdiff, ?_⟩
  rw [← BitVec.toNat_inj]
  omega

end Sys2Proof.Machine
end

section
/-! # 10_state.md section 5: the engine's invariant (R26)

To keep the invariant, an operation has to leave a receive state and a transmit state of R26 and to append outputs that
are in order (`Inv.update`). A frame put out is in order by what it selects (`outputOk_answerOf`), a command by what a
template's first bytes are (`frameOk_build`). -/

namespace Sys2Proof.Machine

/-! ## What is put out (R41, R74, R76, R80) -/

theorem uint48_lt (c : Cfg) (b : Bytes6) : uint48 c b < 2 ^ 48 := by
  rw [uint48_eq_toNat_append]
  exact BitVec.isLt _

theorem outputOk_elec2Event (c : Cfg) (p : Elec2Payload) : OutputOk (.event (elec2Event c p)) :=
  ⟨uint32_lt p.instant, uint48_lt c p.total, rfl⟩

/-- An answer of `DISPATCH` is in order, of whatever bytes: a diagnostic says of the tag what selected it. -/
theorem outputOk_answerOf (c : Cfg) (f : List Byte) : OutputOk (answerOf c (selectFrame f)) := by
  have hsel := selects_selectFrame f
  generalize selectFrame f = sel at hsel
  cases hsel
  case status | response | lighting5 | security1 | untagged => trivial
  case elec2 q => exact outputOk_elec2Event c q
  case unknown t ht l p => exact ht
  case short t ht p hp l => exact ⟨ht, hp, rfl⟩

theorem outputOk_dispatchOutputs (c : Cfg) (f : List Byte) : ∀ o ∈ dispatchOutputs c f, OutputOk o := by
  rw [dispatchOutputs_eq_answerOf]
  exact List.forall_mem_singleton.mpr (outputOk_answerOf c f)

theorem outputOk_frameOutputs (c : Cfg) {f : List Byte} (hf : frameOk f = true) :
    ∀ o ∈ frameOutputs c f, OutputOk o :=
  List.forall_mem_cons.mpr ⟨hf, outputOk_dispatchOutputs c f⟩

/-- What `PARSEID` gives back is no sequence number. -/
theorem exec_parseId_outputOk (t : Text) (s : State) :
    ∃ v, exec (.parseId t) s = .next (s.put [.ret v]) ∧ OutputOk (.ret v) := by
  cases hp : parseId t with
  | none => exact ⟨.parseError, by rw [exec, execParseId, hp, State.giveBack], trivial⟩
  | some b => exact ⟨.idBytes b, by rw [exec, execParseId, hp, State.giveBack], trivial⟩

/-- What is split off is a frame. -/
theorem frameOk_of_mem_split {bs f : List Byte} (hf : f ∈ (split bs).1) : frameOk f = true := by
  obtain ⟨fs, rest, hfs, hrest, rfl⟩ := exists_frames_append_unfinished bs
  rw [split_frames_append_unfinished hfs hrest] at hf
  exact hfs f hf

/-! ## Keeping the invariant -/

theorem seqNext_le {n : Nat} (h : n ≤ 256) : seqNext n ≤ 256 := by
  rw [seqNext_eq_mod h]
  omega

/-- To keep the invariant is to keep the receive and the transmit state and to append outputs that are in order. -/
theorem Inv.update {s : State} (h : Inv s) {buf : List Byte} {req seq : Nat} {os : List Output}
    (hrx : RxInv { s with buf := buf, req := req }) (hseq : seq ≤ 256) (hos : ∀ o ∈ os, OutputOk o) :
    Inv { s with buf := buf, req := req, seq := seq, out := s.out ++ os } where
  rx := hrx
  seq := hseq
  cfg := h.cfg
  input := h.input
  out := List.forall_mem_append.mpr ⟨h.out, hos⟩

/-- Receiving bytes leaves an unfinished frame and hands over frames. -/
theorem Inv.receive {s : State} (h : Inv s) (c : List Byte) : Inv (receive c s) := by
  refine h.update (receive_rxInv c s) h.seq fun o ho => ?_
  obtain ⟨f, hf, ho⟩ := List.mem_flatMap.mp ho
  exact outputOk_frameOutputs s.cfg (frameOk_of_mem_split hf) o ho

/-- A command sends a frame and returns a number that `SEQ` held. -/
theorem Inv.command {s : State} (h : Inv s) (k : CmdKind) (light : Option (Bytes3 × Byte)) (tok : OpaqueName) :
    Inv (command k light tok s) := by
  rw [command_spec]
  refine h.update h.rx (seqNext_le h.seq) ?_
  simp only [List.forall_mem_cons, List.not_mem_nil, false_imp_iff, implies_true, and_true]
  exact ⟨frameOk_build (tpl_wellFormed h.cfg k) s.seq light, h.seq⟩

theorem Inv.lightCommand {s : State} (h : Inv s) (k : CmdKind) (id : Text) (unit : Byte) (tok : OpaqueName) :
    Inv (lightCommand k id unit tok s) := by
  cases hp : parseId id with
  | none =>
    rw [lightCommand_refused hp]
    exact h.update h.rx h.seq (List.forall_mem_singleton.mpr trivial)
  | some b =>
    rw [lightCommand_accepted hp]
    exact h.command k (some (b, unit)) tok

/-- An operation that puts out one thing in order and does nothing else keeps the invariant. -/
theorem Inv.put {s : State} (h : Inv s) {o : Output} (ho : OutputOk o) : Inv (s.put [o]) :=
  h.update h.rx h.seq (List.forall_mem_singleton.mpr ho)

/-- Every operation with the operands of its rule keeps the invariant. -/
theorem Inv.exec {s t : State} (h : Inv s) {i : Instr} (hi : i.operandsOk = true) (hexec : exec i s = .next t) :
    Inv t := by
  cases i
  case rst =>
    obtain rfl := Host.Outcome.next.inj ((rstRestoresTheCreationState s).symm.trans hexec)
    exact ⟨rxInv_of_empty rfl rfl, Nat.zero_le _, h.cfg, h.input, h.out⟩
  case rxb b =>
    obtain rfl := Host.Outcome.next.inj ((exec_rxb b h.rx).symm.trans hexec)
    exact h.receive [b]
  case rxc c =>
    obtain rfl := Host.Outcome.next.inj ((exec_rxc c h.rx).symm.trans hexec)
    exact h.receive c
  case dispatch f =>
    obtain rfl := Host.Outcome.next.inj ((exec_dispatch f s).symm.trans hexec)
    exact h.update h.rx h.seq (outputOk_dispatchOutputs s.cfg f)
  case alloc =>
    obtain rfl := Host.Outcome.next.inj ((exec_alloc s).symm.trans hexec)
    exact h.update h.rx (seqNext_le h.seq) (List.forall_mem_singleton.mpr h.seq)
  case cmdReset | cmdStatus | cmdTamper =>
    obtain rfl := Host.Outcome.next.inj hexec
    exact h.command ..
  case cmdLon | cmdLoff =>
    obtain rfl := Host.Outcome.next.inj hexec
    exact h.lightCommand ..
  case decElec2 p =>
    obtain rfl := Host.Outcome.next.inj hexec
    exact h.put (outputOk_elec2Event s.cfg p)
  case parseId id =>
    obtain ⟨v, hspec, hv⟩ := exec_parseId_outputOk id s
    obtain rfl := Host.Outcome.next.inj (hspec.symm.trans hexec)
    exact h.put hv
  case unhandled tag =>
    obtain rfl := Host.Outcome.next.inj hexec
    cases tag with
    | none => exact h.put trivial
    | some tag => exact h.put ((Bool.not_eq_true' _).mp hi)
  all_goals
    obtain rfl := Host.Outcome.next.inj hexec
    exact h.put trivial

/-- Settles O7: an idle step does nothing, and any other runs an operation that waited, with the operands of its
rule. -/
theorem engineInvariantIsKept : Obligations.EngineInvariantIsKept := by
  intro s t h hstep
  cases hinput : s.input with
  | nil =>
    obtain rfl := Host.Outcome.next.inj ((step_of_input_eq_nil hinput).symm.trans hstep)
    exact h
  | cons i rest =>
    rw [step_of_input_eq_cons hinput] at hstep
    have hwaiting := h.input
    rw [hinput] at hwaiting
    obtain ⟨hi, hrest⟩ := List.forall_mem_cons.mp hwaiting
    have htaken : Inv { s with input := rest } := ⟨h.rx, h.seq, h.cfg, hrest, h.out⟩
    exact htaken.exec hi hstep

/-! ## At reset (R27, R131; assumption 1) -/

theorem wellFormed_minimal : Config.minimal.WellFormed := by decide

/-- The configuration at reset is one of two, both well-formed; the switch of the 48-bit decoder is no part of that. -/
theorem wellFormed_atReset : Config.atReset.WellFormed := by
  have hchosen : (if Config.given.WellFormed then Config.given else Config.minimal).WellFormed := by
    split
    · next hgiven => exact hgiven
    · exact wellFormed_minimal
  exact hchosen

/-- Settles O8: nothing is begun, counted, waiting or put out at reset. -/
theorem engineInvariantAtReset : Obligations.EngineInvariantAtReset :=
  ⟨rxInv_of_empty rfl rfl, Nat.zero_le _, wellFormed_atReset, List.forall_mem_nil _, List.forall_mem_nil _⟩

end Sys2Proof.Machine
end
